-- ==== Sys2Proof/Word.lean ====
section
/-! DEFINITION. The word types: an 8-bit byte and a 16-bit address or word (00_scope R7, R9). -/

namespace Sys2Proof

/-- A byte: A, X, Y, SP, P and every memory byte (R7). -/
abbrev Byte := BitVec 8

/-- A 16-bit word: PC and every effective address (R7). -/
abbrev Word := BitVec 16

end Sys2Proof
end

