-- ==== Sys2Proof/Syntax.lean ====
section
/-! DEFINITION. The instruction as syntax: the 13 addressing modes, the 56 instruction types, the operand forms and
the one inductive `Instr`, one constructor for each mnemonic of spec/opcode_table.json (UNASSIGNED among them), its
rows being the operand forms of that constructor. -/

namespace Sys2Proof

/-- The 13 addressing modes (30_encoding R52). -/
inductive Mode where
  | accumulator | implied | immediate | zeroPage | zeroPageX | zeroPageY | absolute | absoluteX | absoluteY
  | indirect | indirectX | indirectY | relative
  deriving DecidableEq, Repr

/-- The 56 instruction types (30_encoding R69, R70). -/
inductive InstrType where
  | lda | ldx | ldy | sta | stx | sty | tax | tay | txa | tya | tsx | txs
  | pha | php | pla | plp
  | adc | sbc | and | ora | eor | bit | cmp | cpx | cpy | inc | dec | inx | iny | dex | dey
  | asl | lsr | rol | ror
  | jmp | jsr | rts | bcc | bcs | beq | bmi | bne | bpl | bvc | bvs
  | clc | cld | cli | clv | sec | sed | sei | nop | brk | rti
  deriving DecidableEq, Repr

/-- An operand in memory, with its operand bytes: the modes whose resolution is an address (30_encoding R59 to R64,
R66, R67). -/
inductive MemOperand where
  | zeroPage (b : Byte)
  | zeroPageX (b : Byte)
  | zeroPageY (b : Byte)
  | absolute (w : Word)
  | absoluteX (w : Word)
  | absoluteY (w : Word)
  | indirectX (b : Byte)
  | indirectY (b : Byte)
  deriving DecidableEq, Repr

/-- An operand an instruction reads: the Immediate byte (R58) or a byte of memory (R55). -/
inductive ReadOperand where
  | immediate (v : Byte)
  | memory (m : MemOperand)
  deriving DecidableEq, Repr

/-- A memory operand that is read and written back, in the four modes the spec gives INC, DEC and the shifts
(43 R119, R120; 44 R127 to R130). -/
inductive RmwOperand where
  | zeroPage (b : Byte)
  | zeroPageX (b : Byte)
  | absolute (w : Word)
  | absoluteX (w : Word)
  deriving DecidableEq, Repr

/-- The operand and destination of a shift: A (30_encoding R56) or memory (44 R126). -/
inductive ShiftOperand where
  | accumulator
  | memory (m : RmwOperand)
  deriving DecidableEq, Repr

/-- The operand of JMP: the target itself (R62) or a pointer to it (R65). -/
inductive JumpOperand where
  | absolute (w : Word)
  | indirect (w : Word)
  deriving DecidableEq, Repr

/-- An instruction with its operand bytes. -/
inductive Instr where
  -- loads, stores and transfers (41)
  /-- LDA, R83. -/
  | lda (src : ReadOperand)
  /-- LDX, R84. -/
  | ldx (src : ReadOperand)
  /-- LDY, R85. -/
  | ldy (src : ReadOperand)
  /-- STA, R86. -/
  | sta (dst : MemOperand)
  /-- STX, R87. -/
  | stx (dst : MemOperand)
  /-- STY, R88. -/
  | sty (dst : MemOperand)
  /-- TAX, R89. -/
  | tax
  /-- TAY, R90. -/
  | tay
  /-- TXA, R91. -/
  | txa
  /-- TYA, R92. -/
  | tya
  /-- TSX, R93. -/
  | tsx
  /-- TXS, R94. -/
  | txs
  -- stack (42)
  /-- PHA, R95. -/
  | pha
  /-- PHP, R96. -/
  | php
  /-- PLA, R97. -/
  | pla
  /-- PLP, R98. -/
  | plp
  -- arithmetic, logic, compare, increment (43)
  /-- ADC, R110. -/
  | adc (src : ReadOperand)
  /-- SBC, R111. -/
  | sbc (src : ReadOperand)
  /-- AND, R112. -/
  | and (src : ReadOperand)
  /-- ORA, R113. -/
  | ora (src : ReadOperand)
  /-- EOR, R114. -/
  | eor (src : ReadOperand)
  /-- BIT, R115. -/
  | bit (src : MemOperand)
  /-- CMP, R116. -/
  | cmp (src : ReadOperand)
  /-- CPX, R117. -/
  | cpx (src : ReadOperand)
  /-- CPY, R118. -/
  | cpy (src : ReadOperand)
  /-- INC, R119. -/
  | inc (dst : RmwOperand)
  /-- DEC, R120. -/
  | dec (dst : RmwOperand)
  /-- INX, R121. -/
  | inx
  /-- INY, R122. -/
  | iny
  /-- DEX, R123. -/
  | dex
  /-- DEY, R124. -/
  | dey
  -- shifts and rotates (44)
  /-- ASL, R127. -/
  | asl (dst : ShiftOperand)
  /-- LSR, R128. -/
  | lsr (dst : ShiftOperand)
  /-- ROL, R129. -/
  | rol (dst : ShiftOperand)
  /-- ROR, R130. -/
  | ror (dst : ShiftOperand)
  -- jumps and branches (45)
  /-- JMP, R131. -/
  | jmp (tgt : JumpOperand)
  /-- JSR, R132. -/
  | jsr (w : Word)
  /-- RTS, R133. -/
  | rts
  /-- BCC, R135. -/
  | bcc (d : Byte)
  /-- BCS, R136. -/
  | bcs (d : Byte)
  /-- BEQ, R137. -/
  | beq (d : Byte)
  /-- BMI, R138. -/
  | bmi (d : Byte)
  /-- BNE, R139. -/
  | bne (d : Byte)
  /-- BPL, R140. -/
  | bpl (d : Byte)
  /-- BVC, R141. -/
  | bvc (d : Byte)
  /-- BVS, R142. -/
  | bvs (d : Byte)
  -- flags, NOP, BRK, RTI (46)
  /-- CLC, R143. -/
  | clc
  /-- CLD, R144. -/
  | cld
  /-- CLI, R145. -/
  | cli
  /-- CLV, R146. -/
  | clv
  /-- SEC, R147. -/
  | sec
  /-- SED, R148. -/
  | sed
  /-- SEI, R149. -/
  | sei
  /-- NOP, R150. -/
  | nop
  /-- BRK, R151. -/
  | brk
  /-- RTI, R152. -/
  | rti
  -- the 105 unassigned opcodes (30_encoding R71, R75)
  /-- An unassigned opcode, 60_exceptions R154. -/
  | unassigned (opcode : Byte)
  deriving DecidableEq, Repr

/-- The mode of a memory operand. -/
def MemOperand.mode : MemOperand → Mode
  | .zeroPage _ => .zeroPage
  | .zeroPageX _ => .zeroPageX
  | .zeroPageY _ => .zeroPageY
  | .absolute _ => .absolute
  | .absoluteX _ => .absoluteX
  | .absoluteY _ => .absoluteY
  | .indirectX _ => .indirectX
  | .indirectY _ => .indirectY

/-- The mode of an operand that is read. -/
def ReadOperand.mode : ReadOperand → Mode
  | .immediate _ => .immediate
  | .memory m => m.mode

/-- A read-modify-write operand as a memory operand. -/
def RmwOperand.toMem : RmwOperand → MemOperand
  | .zeroPage b => .zeroPage b
  | .zeroPageX b => .zeroPageX b
  | .absolute w => .absolute w
  | .absoluteX w => .absoluteX w

/-- The mode of a shift's operand. -/
def ShiftOperand.mode : ShiftOperand → Mode
  | .accumulator => .accumulator
  | .memory m => m.toMem.mode

/-- The mode of JMP's operand. -/
def JumpOperand.mode : JumpOperand → Mode
  | .absolute _ => .absolute
  | .indirect _ => .indirect

/-- What the decode table says of an instruction: its type and mode, or that its opcode is unassigned (R69). -/
inductive Form where
  | assigned (t : InstrType) (m : Mode)
  | unassigned (opcode : Byte)
  deriving DecidableEq, Repr

/-- The type and mode of an instruction. -/
def Instr.form : Instr → Form
  | .lda src => .assigned .lda src.mode
  | .ldx src => .assigned .ldx src.mode
  | .ldy src => .assigned .ldy src.mode
  | .sta dst => .assigned .sta dst.mode
  | .stx dst => .assigned .stx dst.mode
  | .sty dst => .assigned .sty dst.mode
  | .tax => .assigned .tax .implied
  | .tay => .assigned .tay .implied
  | .txa => .assigned .txa .implied
  | .tya => .assigned .tya .implied
  | .tsx => .assigned .tsx .implied
  | .txs => .assigned .txs .implied
  | .pha => .assigned .pha .implied
  | .php => .assigned .php .implied
  | .pla => .assigned .pla .implied
  | .plp => .assigned .plp .implied
  | .adc src => .assigned .adc src.mode
  | .sbc src => .assigned .sbc src.mode
  | .and src => .assigned .and src.mode
  | .ora src => .assigned .ora src.mode
  | .eor src => .assigned .eor src.mode
  | .bit src => .assigned .bit src.mode
  | .cmp src => .assigned .cmp src.mode
  | .cpx src => .assigned .cpx src.mode
  | .cpy src => .assigned .cpy src.mode
  | .inc dst => .assigned .inc dst.toMem.mode
  | .dec dst => .assigned .dec dst.toMem.mode
  | .inx => .assigned .inx .implied
  | .iny => .assigned .iny .implied
  | .dex => .assigned .dex .implied
  | .dey => .assigned .dey .implied
  | .asl dst => .assigned .asl dst.mode
  | .lsr dst => .assigned .lsr dst.mode
  | .rol dst => .assigned .rol dst.mode
  | .ror dst => .assigned .ror dst.mode
  | .jmp tgt => .assigned .jmp tgt.mode
  | .jsr _ => .assigned .jsr .absolute
  | .rts => .assigned .rts .implied
  | .bcc _ => .assigned .bcc .relative
  | .bcs _ => .assigned .bcs .relative
  | .beq _ => .assigned .beq .relative
  | .bmi _ => .assigned .bmi .relative
  | .bne _ => .assigned .bne .relative
  | .bpl _ => .assigned .bpl .relative
  | .bvc _ => .assigned .bvc .relative
  | .bvs _ => .assigned .bvs .relative
  | .clc => .assigned .clc .implied
  | .cld => .assigned .cld .implied
  | .cli => .assigned .cli .implied
  | .clv => .assigned .clv .implied
  | .sec => .assigned .sec .implied
  | .sed => .assigned .sed .implied
  | .sei => .assigned .sei .implied
  | .nop => .assigned .nop .implied
  | .brk => .assigned .brk .implied
  | .rti => .assigned .rti .implied
  | .unassigned op => .unassigned op

end Sys2Proof
end

