-- ==== Sys2Proof/Decode.lean ====
section
/-! DEFINITION. The decode table and the decoder (30_encoding sections 1 and 3), and after them an encoder written from
the "Encoding" lines of the instruction rules (41 to 46), a source of its own beside the table. -/

namespace Sys2Proof

/-! ### Byte order (20_memory R39, 30_encoding R53) -/

/-- `hi ++ lo`, the 16-bit word whose low byte is `lo`. -/
def wordOf (lo hi : Byte) : Word := hi ++ lo

/-- `lo(w) = w[7:0]` (00_scope R9). -/
def loByte (w : Word) : Byte := w.extractLsb' 0 8

/-- `hi(w) = w[15:8]` (00_scope R9). -/
def hiByte (w : Word) : Byte := w.extractLsb' 8 8

/-! ### The decode table -/

/-- A descriptor of the table: mode, type and base cycle count, or unassigned (R69). -/
inductive Descriptor where
  | assigned (mode : Mode) (type : InstrType) (base : Nat)
  | unassigned
  deriving DecidableEq, Repr

/-- R73, R74: the opcodes 0x00 to 0x0F. -/
def decodeRow0 : List Descriptor :=
  [.assigned .implied .brk 7, .assigned .indirectX .ora 6, .unassigned, .unassigned,
   .unassigned, .assigned .zeroPage .ora 3, .assigned .zeroPage .asl 5, .unassigned,
   .assigned .implied .php 3, .assigned .immediate .ora 2, .assigned .accumulator .asl 2, .unassigned,
   .unassigned, .assigned .absolute .ora 4, .assigned .absolute .asl 6, .unassigned]

/-- R73, R74: the opcodes 0x10 to 0x1F. -/
def decodeRow1 : List Descriptor :=
  [.assigned .relative .bpl 2, .assigned .indirectY .ora 5, .unassigned, .unassigned,
   .unassigned, .assigned .zeroPageX .ora 4, .assigned .zeroPageX .asl 6, .unassigned,
   .assigned .implied .clc 2, .assigned .absoluteY .ora 4, .unassigned, .unassigned,
   .unassigned, .assigned .absoluteX .ora 4, .assigned .absoluteX .asl 7, .unassigned]

/-- R73, R74: the opcodes 0x20 to 0x2F. -/
def decodeRow2 : List Descriptor :=
  [.assigned .absolute .jsr 6, .assigned .indirectX .and 6, .unassigned, .unassigned,
   .assigned .zeroPage .bit 3, .assigned .zeroPage .and 3, .assigned .zeroPage .rol 5, .unassigned,
   .assigned .implied .plp 4, .assigned .immediate .and 2, .assigned .accumulator .rol 2, .unassigned,
   .assigned .absolute .bit 4, .assigned .absolute .and 4, .assigned .absolute .rol 6, .unassigned]

/-- R73, R74: the opcodes 0x30 to 0x3F. -/
def decodeRow3 : List Descriptor :=
  [.assigned .relative .bmi 2, .assigned .indirectY .and 5, .unassigned, .unassigned,
   .unassigned, .assigned .zeroPageX .and 4, .assigned .zeroPageX .rol 6, .unassigned,
   .assigned .implied .sec 2, .assigned .absoluteY .and 4, .unassigned, .unassigned,
   .unassigned, .assigned .absoluteX .and 4, .assigned .absoluteX .rol 7, .unassigned]

/-- R73, R74: the opcodes 0x40 to 0x4F. -/
def decodeRow4 : List Descriptor :=
  [.assigned .implied .rti 6, .assigned .indirectX .eor 6, .unassigned, .unassigned,
   .unassigned, .assigned .zeroPage .eor 3, .assigned .zeroPage .lsr 5, .unassigned,
   .assigned .implied .pha 3, .assigned .immediate .eor 2, .assigned .accumulator .lsr 2, .unassigned,
   .assigned .absolute .jmp 3, .assigned .absolute .eor 4, .assigned .absolute .lsr 6, .unassigned]

/-- R73, R74: the opcodes 0x50 to 0x5F. -/
def decodeRow5 : List Descriptor :=
  [.assigned .relative .bvc 2, .assigned .indirectY .eor 5, .unassigned, .unassigned,
   .unassigned, .assigned .zeroPageX .eor 4, .assigned .zeroPageX .lsr 6, .unassigned,
   .assigned .implied .cli 2, .assigned .absoluteY .eor 4, .unassigned, .unassigned,
   .unassigned, .assigned .absoluteX .eor 4, .assigned .absoluteX .lsr 7, .unassigned]

/-- R73, R74: the opcodes 0x60 to 0x6F. -/
def decodeRow6 : List Descriptor :=
  [.assigned .implied .rts 6, .assigned .indirectX .adc 6, .unassigned, .unassigned,
   .unassigned, .assigned .zeroPage .adc 3, .assigned .zeroPage .ror 5, .unassigned,
   .assigned .implied .pla 4, .assigned .immediate .adc 2, .assigned .accumulator .ror 2, .unassigned,
   .assigned .indirect .jmp 5, .assigned .absolute .adc 4, .assigned .absolute .ror 6, .unassigned]

/-- R73, R74: the opcodes 0x70 to 0x7F. -/
def decodeRow7 : List Descriptor :=
  [.assigned .relative .bvs 2, .assigned .indirectY .adc 5, .unassigned, .unassigned,
   .unassigned, .assigned .zeroPageX .adc 4, .assigned .zeroPageX .ror 6, .unassigned,
   .assigned .implied .sei 2, .assigned .absoluteY .adc 4, .unassigned, .unassigned,
   .unassigned, .assigned .absoluteX .adc 4, .assigned .absoluteX .ror 7, .unassigned]

/-- R73, R74: the opcodes 0x80 to 0x8F. -/
def decodeRow8 : List Descriptor :=
  [.unassigned, .assigned .indirectX .sta 6, .unassigned, .unassigned,
   .assigned .zeroPage .sty 3, .assigned .zeroPage .sta 3, .assigned .zeroPage .stx 3, .unassigned,
   .assigned .implied .dey 2, .unassigned, .assigned .implied .txa 2, .unassigned,
   .assigned .absolute .sty 4, .assigned .absolute .sta 4, .assigned .absolute .stx 4, .unassigned]

/-- R73, R74: the opcodes 0x90 to 0x9F. -/
def decodeRow9 : List Descriptor :=
  [.assigned .relative .bcc 2, .assigned .indirectY .sta 6, .unassigned, .unassigned,
   .assigned .zeroPageX .sty 4, .assigned .zeroPageX .sta 4, .assigned .zeroPageY .stx 4, .unassigned,
   .assigned .implied .tya 2, .assigned .absoluteY .sta 5, .assigned .implied .txs 2, .unassigned,
   .unassigned, .assigned .absoluteX .sta 5, .unassigned, .unassigned]

/-- R73, R74: the opcodes 0xA0 to 0xAF. -/
def decodeRowA : List Descriptor :=
  [.assigned .immediate .ldy 2, .assigned .indirectX .lda 6, .assigned .immediate .ldx 2, .unassigned,
   .assigned .zeroPage .ldy 3, .assigned .zeroPage .lda 3, .assigned .zeroPage .ldx 3, .unassigned,
   .assigned .implied .tay 2, .assigned .immediate .lda 2, .assigned .implied .tax 2, .unassigned,
   .assigned .absolute .ldy 4, .assigned .absolute .lda 4, .assigned .absolute .ldx 4, .unassigned]

/-- R73, R74: the opcodes 0xB0 to 0xBF. -/
def decodeRowB : List Descriptor :=
  [.assigned .relative .bcs 2, .assigned .indirectY .lda 5, .unassigned, .unassigned,
   .assigned .zeroPageX .ldy 4, .assigned .zeroPageX .lda 4, .assigned .zeroPageY .ldx 4, .unassigned,
   .assigned .implied .clv 2, .assigned .absoluteY .lda 4, .assigned .implied .tsx 2, .unassigned,
   .assigned .absoluteX .ldy 4, .assigned .absoluteX .lda 4, .assigned .absoluteY .ldx 4, .unassigned]

/-- R73, R74: the opcodes 0xC0 to 0xCF. -/
def decodeRowC : List Descriptor :=
  [.assigned .immediate .cpy 2, .assigned .indirectX .cmp 6, .unassigned, .unassigned,
   .assigned .zeroPage .cpy 3, .assigned .zeroPage .cmp 3, .assigned .zeroPage .dec 5, .unassigned,
   .assigned .implied .iny 2, .assigned .immediate .cmp 2, .assigned .implied .dex 2, .unassigned,
   .assigned .absolute .cpy 4, .assigned .absolute .cmp 4, .assigned .absolute .dec 6, .unassigned]

/-- R73, R74: the opcodes 0xD0 to 0xDF. -/
def decodeRowD : List Descriptor :=
  [.assigned .relative .bne 2, .assigned .indirectY .cmp 5, .unassigned, .unassigned,
   .unassigned, .assigned .zeroPageX .cmp 4, .assigned .zeroPageX .dec 6, .unassigned,
   .assigned .implied .cld 2, .assigned .absoluteY .cmp 4, .unassigned, .unassigned,
   .unassigned, .assigned .absoluteX .cmp 4, .assigned .absoluteX .dec 7, .unassigned]

/-- R73, R74: the opcodes 0xE0 to 0xEF. -/
def decodeRowE : List Descriptor :=
  [.assigned .immediate .cpx 2, .assigned .indirectX .sbc 6, .unassigned, .unassigned,
   .assigned .zeroPage .cpx 3, .assigned .zeroPage .sbc 3, .assigned .zeroPage .inc 5, .unassigned,
   .assigned .implied .inx 2, .assigned .immediate .sbc 2, .assigned .implied .nop 2, .unassigned,
   .assigned .absolute .cpx 4, .assigned .absolute .sbc 4, .assigned .absolute .inc 6, .unassigned]

/-- R73, R74: the opcodes 0xF0 to 0xFF. -/
def decodeRowF : List Descriptor :=
  [.assigned .relative .beq 2, .assigned .indirectY .sbc 5, .unassigned, .unassigned,
   .unassigned, .assigned .zeroPageX .sbc 4, .assigned .zeroPageX .inc 6, .unassigned,
   .assigned .implied .sed 2, .assigned .absoluteY .sbc 4, .unassigned, .unassigned,
   .unassigned, .assigned .absoluteX .sbc 4, .assigned .absoluteX .inc 7, .unassigned]

/-- The decode table of R69, the map of R73 with the base cycles of R74. -/
def decodeTable : List Descriptor :=
  decodeRow0 ++ decodeRow1 ++ decodeRow2 ++ decodeRow3 ++ decodeRow4 ++ decodeRow5 ++ decodeRow6 ++ decodeRow7 ++
  decodeRow8 ++ decodeRow9 ++ decodeRowA ++ decodeRowB ++ decodeRowC ++ decodeRowD ++ decodeRowE ++ decodeRowF

/-- `Decode(opcode)` (R70). -/
def descriptor (op : Byte) : Descriptor := decodeTable.getD op.toNat .unassigned

/-- The operand bytes after the opcode, by mode (R52). -/
def operandCount : Mode → Nat
  | .accumulator => 0
  | .implied => 0
  | .immediate => 1
  | .zeroPage => 1
  | .zeroPageX => 1
  | .zeroPageY => 1
  | .absolute => 2
  | .absoluteX => 2
  | .absoluteY => 2
  | .indirect => 2
  | .indirectX => 1
  | .indirectY => 1
  | .relative => 1

/-- The length of an instruction in bytes, fixed by its mode (R51, R52). -/
def modeLength (m : Mode) : Nat := 1 + operandCount m

/-- The operand bytes a descriptor asks for. An unassigned opcode is one byte (its table row). -/
def Descriptor.operandCount : Descriptor → Nat
  | .assigned m _ _ => Sys2Proof.operandCount m
  | .unassigned => 0

/-- A memory operand from its mode and operand bytes (R53). -/
def memOperand (m : Mode) (b1 b2 : Byte) : Option MemOperand :=
  match m with
  | .zeroPage => some (.zeroPage b1)
  | .zeroPageX => some (.zeroPageX b1)
  | .zeroPageY => some (.zeroPageY b1)
  | .absolute => some (.absolute (wordOf b1 b2))
  | .absoluteX => some (.absoluteX (wordOf b1 b2))
  | .absoluteY => some (.absoluteY (wordOf b1 b2))
  | .indirectX => some (.indirectX b1)
  | .indirectY => some (.indirectY b1)
  | .accumulator => none
  | .implied => none
  | .immediate => none
  | .indirect => none
  | .relative => none

/-- An operand that is read (R53, R58). -/
def readOperand (m : Mode) (b1 b2 : Byte) : Option ReadOperand :=
  if m = .immediate then some (.immediate b1) else (memOperand m b1 b2).map .memory

/-- A read-modify-write operand (R53). -/
def rmwOperand (m : Mode) (b1 b2 : Byte) : Option RmwOperand :=
  match m with
  | .zeroPage => some (.zeroPage b1)
  | .zeroPageX => some (.zeroPageX b1)
  | .absolute => some (.absolute (wordOf b1 b2))
  | .absoluteX => some (.absoluteX (wordOf b1 b2))
  | .accumulator => none
  | .implied => none
  | .immediate => none
  | .zeroPageY => none
  | .absoluteY => none
  | .indirect => none
  | .indirectX => none
  | .indirectY => none
  | .relative => none

/-- A shift's operand (R53, R56). -/
def shiftOperand (m : Mode) (b1 b2 : Byte) : Option ShiftOperand :=
  if m = .accumulator then some .accumulator else (rmwOperand m b1 b2).map .memory

/-- JMP's operand (R53, R62, R65). -/
def jumpOperand (m : Mode) (b1 b2 : Byte) : Option JumpOperand :=
  if m = .absolute then some (.absolute (wordOf b1 b2))
  else if m = .indirect then some (.indirect (wordOf b1 b2))
  else none

/-- The instruction of a type in a mode with its operand bytes; `none` for a pair no row of the table holds. -/
def assemble (t : InstrType) (m : Mode) (b1 b2 : Byte) : Option Instr :=
  match t with
  | .lda => (readOperand m b1 b2).map .lda
  | .ldx => (readOperand m b1 b2).map .ldx
  | .ldy => (readOperand m b1 b2).map .ldy
  | .sta => (memOperand m b1 b2).map .sta
  | .stx => (memOperand m b1 b2).map .stx
  | .sty => (memOperand m b1 b2).map .sty
  | .tax => some .tax
  | .tay => some .tay
  | .txa => some .txa
  | .tya => some .tya
  | .tsx => some .tsx
  | .txs => some .txs
  | .pha => some .pha
  | .php => some .php
  | .pla => some .pla
  | .plp => some .plp
  | .adc => (readOperand m b1 b2).map .adc
  | .sbc => (readOperand m b1 b2).map .sbc
  | .and => (readOperand m b1 b2).map .and
  | .ora => (readOperand m b1 b2).map .ora
  | .eor => (readOperand m b1 b2).map .eor
  | .bit => (memOperand m b1 b2).map .bit
  | .cmp => (readOperand m b1 b2).map .cmp
  | .cpx => (readOperand m b1 b2).map .cpx
  | .cpy => (readOperand m b1 b2).map .cpy
  | .inc => (rmwOperand m b1 b2).map .inc
  | .dec => (rmwOperand m b1 b2).map .dec
  | .inx => some .inx
  | .iny => some .iny
  | .dex => some .dex
  | .dey => some .dey
  | .asl => (shiftOperand m b1 b2).map .asl
  | .lsr => (shiftOperand m b1 b2).map .lsr
  | .rol => (shiftOperand m b1 b2).map .rol
  | .ror => (shiftOperand m b1 b2).map .ror
  | .jmp => (jumpOperand m b1 b2).map .jmp
  | .jsr => some (.jsr (wordOf b1 b2))
  | .rts => some .rts
  | .bcc => some (.bcc b1)
  | .bcs => some (.bcs b1)
  | .beq => some (.beq b1)
  | .bmi => some (.bmi b1)
  | .bne => some (.bne b1)
  | .bpl => some (.bpl b1)
  | .bvc => some (.bvc b1)
  | .bvs => some (.bvs b1)
  | .clc => some .clc
  | .cld => some .cld
  | .cli => some .cli
  | .clv => some .clv
  | .sec => some .sec
  | .sed => some .sed
  | .sei => some .sei
  | .nop => some .nop
  | .brk => some .brk
  | .rti => some .rti

/-- The instruction of an opcode byte and the two bytes after it; operand bytes the mode does not have are ignored. -/
def decodeOpcode (op b1 b2 : Byte) : Instr :=
  match descriptor op with
  | .assigned m t _ => (assemble t m b1 b2).getD (.unassigned op)
  | .unassigned => .unassigned op

/-! ### The decoder over a list of bytes -/

/-- What decoding a list of bytes gives: an instruction and the bytes after it, or a rejection by name. -/
inductive DecodeResult where
  | instr (i : Instr) (rest : List Byte)
  /-- There is no opcode byte. -/
  | noOpcode
  /-- The bytes end before the opcode's operand bytes do. -/
  | truncated (op : Byte)
  deriving DecidableEq, Repr

/-- Decodes the first instruction of a list of bytes (R51, R53, R70). -/
def decode : List Byte → DecodeResult
  | [] => .noOpcode
  | op :: rest =>
    if rest.length < (descriptor op).operandCount then .truncated op
    else .instr (decodeOpcode op (rest.getD 0 0) (rest.getD 1 0)) (rest.drop (descriptor op).operandCount)

/-- The decoder on a row's bits, numbered as spec/opcode_table.json numbers them: the opcode byte is bits 7:0, the
operand bytes follow; every bit from `nbits` up is 0, up to the longest instruction of three bytes. -/
def decodeTableWord (nbits w : Nat) : Option Instr :=
  let bits := w % 2 ^ nbits
  match decode [BitVec.ofNat 8 bits, BitVec.ofNat 8 (bits / 256), BitVec.ofNat 8 (bits / 65536)] with
  | .instr i _ => some i
  | .noOpcode => none
  | .truncated _ => none

/-! ### The encoder -/

/-- The "Encoding" line of each instruction rule, paired with its "Operands" line (41 to 46). -/
def encodings : InstrType → List (Mode × Byte)
  | .lda => [(.immediate, 0xA9), (.zeroPage, 0xA5), (.zeroPageX, 0xB5), (.absolute, 0xAD),
      (.absoluteX, 0xBD), (.absoluteY, 0xB9), (.indirectX, 0xA1), (.indirectY, 0xB1)]
  | .ldx => [(.immediate, 0xA2), (.zeroPage, 0xA6), (.zeroPageY, 0xB6), (.absolute, 0xAE), (.absoluteY, 0xBE)]
  | .ldy => [(.immediate, 0xA0), (.zeroPage, 0xA4), (.zeroPageX, 0xB4), (.absolute, 0xAC), (.absoluteX, 0xBC)]
  | .sta => [(.zeroPage, 0x85), (.zeroPageX, 0x95), (.absolute, 0x8D), (.absoluteX, 0x9D),
      (.absoluteY, 0x99), (.indirectX, 0x81), (.indirectY, 0x91)]
  | .stx => [(.zeroPage, 0x86), (.zeroPageY, 0x96), (.absolute, 0x8E)]
  | .sty => [(.zeroPage, 0x84), (.zeroPageX, 0x94), (.absolute, 0x8C)]
  | .tax => [(.implied, 0xAA)]
  | .tay => [(.implied, 0xA8)]
  | .txa => [(.implied, 0x8A)]
  | .tya => [(.implied, 0x98)]
  | .tsx => [(.implied, 0xBA)]
  | .txs => [(.implied, 0x9A)]
  | .pha => [(.implied, 0x48)]
  | .php => [(.implied, 0x08)]
  | .pla => [(.implied, 0x68)]
  | .plp => [(.implied, 0x28)]
  | .adc => [(.immediate, 0x69), (.zeroPage, 0x65), (.zeroPageX, 0x75), (.absolute, 0x6D),
      (.absoluteX, 0x7D), (.absoluteY, 0x79), (.indirectX, 0x61), (.indirectY, 0x71)]
  | .sbc => [(.immediate, 0xE9), (.zeroPage, 0xE5), (.zeroPageX, 0xF5), (.absolute, 0xED),
      (.absoluteX, 0xFD), (.absoluteY, 0xF9), (.indirectX, 0xE1), (.indirectY, 0xF1)]
  | .and => [(.immediate, 0x29), (.zeroPage, 0x25), (.zeroPageX, 0x35), (.absolute, 0x2D),
      (.absoluteX, 0x3D), (.absoluteY, 0x39), (.indirectX, 0x21), (.indirectY, 0x31)]
  | .ora => [(.immediate, 0x09), (.zeroPage, 0x05), (.zeroPageX, 0x15), (.absolute, 0x0D),
      (.absoluteX, 0x1D), (.absoluteY, 0x19), (.indirectX, 0x01), (.indirectY, 0x11)]
  | .eor => [(.immediate, 0x49), (.zeroPage, 0x45), (.zeroPageX, 0x55), (.absolute, 0x4D),
      (.absoluteX, 0x5D), (.absoluteY, 0x59), (.indirectX, 0x41), (.indirectY, 0x51)]
  | .bit => [(.zeroPage, 0x24), (.absolute, 0x2C)]
  | .cmp => [(.immediate, 0xC9), (.zeroPage, 0xC5), (.zeroPageX, 0xD5), (.absolute, 0xCD),
      (.absoluteX, 0xDD), (.absoluteY, 0xD9), (.indirectX, 0xC1), (.indirectY, 0xD1)]
  | .cpx => [(.immediate, 0xE0), (.zeroPage, 0xE4), (.absolute, 0xEC)]
  | .cpy => [(.immediate, 0xC0), (.zeroPage, 0xC4), (.absolute, 0xCC)]
  | .inc => [(.zeroPage, 0xE6), (.zeroPageX, 0xF6), (.absolute, 0xEE), (.absoluteX, 0xFE)]
  | .dec => [(.zeroPage, 0xC6), (.zeroPageX, 0xD6), (.absolute, 0xCE), (.absoluteX, 0xDE)]
  | .inx => [(.implied, 0xE8)]
  | .iny => [(.implied, 0xC8)]
  | .dex => [(.implied, 0xCA)]
  | .dey => [(.implied, 0x88)]
  | .asl => [(.accumulator, 0x0A), (.zeroPage, 0x06), (.zeroPageX, 0x16), (.absolute, 0x0E), (.absoluteX, 0x1E)]
  | .lsr => [(.accumulator, 0x4A), (.zeroPage, 0x46), (.zeroPageX, 0x56), (.absolute, 0x4E), (.absoluteX, 0x5E)]
  | .rol => [(.accumulator, 0x2A), (.zeroPage, 0x26), (.zeroPageX, 0x36), (.absolute, 0x2E), (.absoluteX, 0x3E)]
  | .ror => [(.accumulator, 0x6A), (.zeroPage, 0x66), (.zeroPageX, 0x76), (.absolute, 0x6E), (.absoluteX, 0x7E)]
  | .jmp => [(.absolute, 0x4C), (.indirect, 0x6C)]
  | .jsr => [(.absolute, 0x20)]
  | .rts => [(.implied, 0x60)]
  | .bcc => [(.relative, 0x90)]
  | .bcs => [(.relative, 0xB0)]
  | .beq => [(.relative, 0xF0)]
  | .bmi => [(.relative, 0x30)]
  | .bne => [(.relative, 0xD0)]
  | .bpl => [(.relative, 0x10)]
  | .bvc => [(.relative, 0x50)]
  | .bvs => [(.relative, 0x70)]
  | .clc => [(.implied, 0x18)]
  | .cld => [(.implied, 0xD8)]
  | .cli => [(.implied, 0x58)]
  | .clv => [(.implied, 0xB8)]
  | .sec => [(.implied, 0x38)]
  | .sed => [(.implied, 0xF8)]
  | .sei => [(.implied, 0x78)]
  | .nop => [(.implied, 0xEA)]
  | .brk => [(.implied, 0x00)]
  | .rti => [(.implied, 0x40)]

/-- The opcode byte of an instruction; `none` for a term that is no instruction. -/
def opcodeOf (i : Instr) : Option Byte :=
  match i.form with
  | .assigned t m => (encodings t).lookup m
  | .unassigned op => if unassignedOpcodes.contains op then some op else none

/-- The operand bytes of a memory operand, low byte first (R51, R53). -/
def MemOperand.bytes : MemOperand → List Byte
  | .zeroPage b => [b]
  | .zeroPageX b => [b]
  | .zeroPageY b => [b]
  | .absolute w => [loByte w, hiByte w]
  | .absoluteX w => [loByte w, hiByte w]
  | .absoluteY w => [loByte w, hiByte w]
  | .indirectX b => [b]
  | .indirectY b => [b]

/-- The operand bytes of an operand that is read. -/
def ReadOperand.bytes : ReadOperand → List Byte
  | .immediate v => [v]
  | .memory m => m.bytes

/-- The operand bytes of a shift's operand. -/
def ShiftOperand.bytes : ShiftOperand → List Byte
  | .accumulator => []
  | .memory m => m.toMem.bytes

/-- The operand bytes of JMP's operand. -/
def JumpOperand.bytes : JumpOperand → List Byte
  | .absolute w => [loByte w, hiByte w]
  | .indirect w => [loByte w, hiByte w]

/-- The operand bytes of an instruction (R51). -/
def operandBytes : Instr → List Byte
  | .lda src => src.bytes
  | .ldx src => src.bytes
  | .ldy src => src.bytes
  | .sta dst => dst.bytes
  | .stx dst => dst.bytes
  | .sty dst => dst.bytes
  | .tax => []
  | .tay => []
  | .txa => []
  | .tya => []
  | .tsx => []
  | .txs => []
  | .pha => []
  | .php => []
  | .pla => []
  | .plp => []
  | .adc src => src.bytes
  | .sbc src => src.bytes
  | .and src => src.bytes
  | .ora src => src.bytes
  | .eor src => src.bytes
  | .bit src => src.bytes
  | .cmp src => src.bytes
  | .cpx src => src.bytes
  | .cpy src => src.bytes
  | .inc dst => dst.toMem.bytes
  | .dec dst => dst.toMem.bytes
  | .inx => []
  | .iny => []
  | .dex => []
  | .dey => []
  | .asl dst => dst.bytes
  | .lsr dst => dst.bytes
  | .rol dst => dst.bytes
  | .ror dst => dst.bytes
  | .jmp tgt => tgt.bytes
  | .jsr w => [loByte w, hiByte w]
  | .rts => []
  | .bcc d => [d]
  | .bcs d => [d]
  | .beq d => [d]
  | .bmi d => [d]
  | .bne d => [d]
  | .bpl d => [d]
  | .bvc d => [d]
  | .bvs d => [d]
  | .clc => []
  | .cld => []
  | .cli => []
  | .clv => []
  | .sec => []
  | .sed => []
  | .sei => []
  | .nop => []
  | .brk => []
  | .rti => []
  | .unassigned _ => []

/-- The bytes of an instruction in the order of memory; `none` for a term that is no instruction. -/
def encode (i : Instr) : Option (List Byte) := (opcodeOf i).map (· :: operandBytes i)

/-- The length of an instruction in bytes (R51, R52). -/
def instrLength (i : Instr) : Nat :=
  match i.form with
  | .assigned _ m => modeLength m
  | .unassigned _ => 1

end Sys2Proof
end

