-- ==== Sys2Proof/Config.lean ====
section
/-! DEFINITION. What the spec leaves to the configuration (00_scope R8) and what a byte nobody wrote reads as. -/

namespace Sys2Proof

/-- DECIMAL_ENABLED (R8), the open parameter: the spec gives no default, so it has no body and no proof can see its
value. It is only what `State.reset` and `State.powerOn` hold in their field `decimalEnabled` (entry 5). -/
opaque Config.decimalEnabled : Bool

/-- What an address of memory that lists nothing reads as. DESIGN CHOICE, unsafe (entry 1): the spec leaves it
unspecified (20_memory R38). -/
def Config.unwrittenByte : Byte := 0x00

end Sys2Proof
end

