-- ==== Sys2Proof/Machine/State.lean ====
section
/-! DEFINITION. The state of the machine as plain data: the regfile, the fetch-decode unit's debt, the interrupt
controller's requests, the configuration input and the 64 KiB store (10_state sections 1 to 3, 20_memory). -/

namespace Sys2Proof.Machine

/-- The seven flags, "one bit each" (10_state R19). Bit 5 of P is hard-wired and is no field (R21). -/
structure Flags where
  /-- C, carry. -/
  c : Bool
  /-- Z, zero. -/
  z : Bool
  /-- I, interrupt disable. -/
  i : Bool
  /-- D, decimal. -/
  d : Bool
  /-- B, break, a stored bit (R22). -/
  b : Bool
  /-- V, overflow. -/
  v : Bool
  /-- N, negative. -/
  n : Bool
  deriving DecidableEq, Repr

/-- The store: (address, byte) pairs in one canonical form, `Memory.wf` of Machine/Ops.lean. -/
abbrev Memory := List Host.Cell

/-- Everything the spec gives the machine (10_state R13, R25 to R27; 20_memory R35), as plain data. -/
structure State where
  /-- A, the accumulator (R14). -/
  a : Byte
  /-- X, index register (R15). -/
  x : Byte
  /-- Y, index register (R16). -/
  y : Byte
  /-- SP, the offset into the stack page (R17). -/
  sp : Byte
  /-- PC, at a boundary the address of the next opcode (R18). -/
  pc : Word
  /-- The flags of P (R19, R20). -/
  flags : Flags
  /-- The cycle-debt counter: Idle at 0, Busy(n) at n (R25). -/
  debt : Nat
  /-- The latched Reset request (R26). -/
  resetPending : Bool
  /-- The latched NMI edge (R26). -/
  nmiPending : Bool
  /-- The last level of the NMI line (R26). -/
  nmiLine : Bool
  /-- The level of the IRQ line (R26). -/
  irqLine : Bool
  /-- DECIMAL_ENABLED, the configuration input (R27; 00_scope R8): no operation of the model writes it. -/
  decimalEnabled : Bool
  /-- The byte store (20_memory R35, R37). -/
  mem : Memory
  deriving DecidableEq, Repr

/-- Why the machine stops. InvalidOpcode is the only core-level error (60_exceptions R153). -/
inductive Fault where
  /-- Raised by `execUnassigned`, the meaning of the 105 unassigned opcodes; the state before the step is the state
  after it (60_exceptions R154). Safe: a chip would go on (92_eei_decisions D6, entry 6). -/
  | invalidOpcode (opcode : Byte)
  deriving DecidableEq, Repr

/-- Why an instruction has no meaning. -/
inductive Refusal where
  /-- For an arm of `exec` with no meaning yet. No arm raises it: every instruction has its meaning. Safe. -/
  | notModelled (mnemonic : String)
  deriving DecidableEq, Repr

/-- The state after the Reset sequence that follows power-on (10_state R28, third column; 60_exceptions R160): SP, I,
D, debt and the requests as the spec gives them, PC the word at the Reset vector of a memory that lists nothing, the
lines as at power-on (entry 4). A, X, Y and the flags C, Z, B, V, N: DESIGN CHOICE, unsafe (entry 2).
`decimalEnabled` is the open parameter (entry 5). -/
def State.reset : State where
  a := 0x00
  x := 0x00
  y := 0x00
  sp := 0xFF
  pc := Config.unwrittenByte ++ Config.unwrittenByte
  flags := { c := false, z := false, i := true, d := false, b := false, v := false, n := false }
  debt := 6
  resetPending := false
  nmiPending := false
  nmiLine := false
  irqLine := false
  decimalEnabled := Config.decimalEnabled
  mem := []

/-- The state at power-on, before the first Reset sequence (10_state R28, second column; 70 R168). The registers and
flags, which the spec leaves unspecified: DESIGN CHOICE, unsafe (entries 2 and 3). -/
def State.powerOn : State where
  a := 0x00
  x := 0x00
  y := 0x00
  sp := 0x00
  pc := 0x0000
  flags := { c := false, z := false, i := false, d := false, b := false, v := false, n := false }
  debt := 0
  resetPending := true
  nmiPending := false
  nmiLine := false
  irqLine := false
  decimalEnabled := Config.decimalEnabled
  mem := []

end Sys2Proof.Machine
end

