-- ==== Sys2Proof/Machine/Ops.lean ====
section
/-! DEFINITION. The named operations every meaning is made of: the memory port, the registers, the packed status, the
stack, entering and leaving an interrupt handler, the Reset sequence, the request lines, and re-arming the debt. -/

namespace Sys2Proof.Machine

/-- What `step` and `exec` answer with. -/
abbrev Result := Host.Outcome State Fault Refusal

/-! ### The store (20_memory R35 to R42) -/

/-- The byte listed at an address, or what an unlisted address reads as (R37, R38). -/
def memRead (m : Memory) (a : Nat) : Byte :=
  match m with
  | [] => Config.unwrittenByte
  | cell :: rest => if cell.1 = a then cell.2 else memRead rest a

/-- The store without the cells at an address. -/
def memErase (m : Memory) (a : Nat) : Memory :=
  match m with
  | [] => []
  | cell :: rest => if cell.1 = a then memErase rest a else cell :: memErase rest a

/-- Puts a cell before the first cell of a higher address. -/
def memInsert (m : Memory) (a : Nat) (v : Byte) : Memory :=
  match m with
  | [] => [(a, v)]
  | cell :: rest => if a < cell.1 then (a, v) :: cell :: rest else cell :: memInsert rest a v

/-- Writes one byte, in the canonical form: a byte equal to what an unlisted address reads as is not listed. -/
def memWrite (m : Memory) (a : Nat) (v : Byte) : Memory :=
  if v = Config.unwrittenByte then memErase m a else memInsert (memErase m a) a v

/-- Every cell's address is above `lo`, they rise strictly and stay below 65536, and no cell holds the unlisted byte. -/
def memSorted (lo : Nat) (m : Memory) : Bool :=
  match m with
  | [] => true
  | cell :: rest =>
    decide (lo ≤ cell.1) && decide (cell.1 < 65536) && decide (cell.2 ≠ Config.unwrittenByte) &&
      memSorted (cell.1 + 1) rest

/-- The canonical form of the store. -/
def Memory.wf (m : Memory) : Bool := memSorted 0 m

/-- `MemRead(a)` (10_state R33). -/
def State.read (s : State) (a : Word) : Byte := memRead s.mem a.toNat

/-- `MemWrite(a, v)` (10_state R33). -/
def State.write (s : State) (a : Word) (v : Byte) : State := { s with mem := memWrite s.mem a.toNat v }

/-- `MemRead16(a)`: little-endian, the second address modulo 65536 (20_memory R39). -/
def State.read16 (s : State) (a : Word) : Word := wordOf (s.read a) (s.read (a + 1))

/-- `zext_16` of a byte (00_scope R9): a zero-page address. -/
def zext (b : Byte) : Word := b.setWidth 16

/-- `sext_16` of a byte (00_scope R9). -/
def sext (b : Byte) : Word := b.signExtend 16

/-- `MemRead16ZP(z)`: the second byte wraps within page 0 (20_memory R40). -/
def State.read16ZP (s : State) (z : Byte) : Word := wordOf (s.read (zext z)) (s.read (zext (z + 1)))

/-! ### Registers (10_state R13) -/

/-- `A <- v`. -/
def State.setA (s : State) (v : Byte) : State := { s with a := v }

/-- `X <- v`. -/
def State.setX (s : State) (v : Byte) : State := { s with x := v }

/-- `Y <- v`. -/
def State.setY (s : State) (v : Byte) : State := { s with y := v }

/-- `SP <- v`. -/
def State.setSP (s : State) (v : Byte) : State := { s with sp := v }

/-- `PC <- w`. -/
def State.setPC (s : State) (w : Word) : State := { s with pc := w }

/-- Replaces the flags. -/
def State.setFlags (s : State) (f : Flags) : State := { s with flags := f }

/-! ### The packed status (10_state R20, R21) -/

/-- A bit of a byte at a position. -/
def bitAt (b : Bool) (k : Nat) : Byte := if b then BitVec.ofNat 8 (2 ^ k) else 0

/-- `P = N<<7 | V<<6 | 1<<5 | B<<4 | D<<3 | I<<2 | Z<<1 | C` (R20); bit 5 is hard-wired to 1 (R21). -/
def Flags.pack (f : Flags) : Byte :=
  bitAt f.n 7 ||| bitAt f.v 6 ||| bitAt true 5 ||| bitAt f.b 4 ||| bitAt f.d 3 ||| bitAt f.i 2 ||| bitAt f.z 1 |||
    bitAt f.c 0

/-- The flags of a pulled byte; bit 5 is ignored (R21; 42_stack R98). -/
def Flags.unpack (v : Byte) : Flags where
  c := v.getLsbD 0
  z := v.getLsbD 1
  i := v.getLsbD 2
  d := v.getLsbD 3
  b := v.getLsbD 4
  v := v.getLsbD 6
  n := v.getLsbD 7

/-- P, the packed status byte. -/
def State.status (s : State) : Byte := s.flags.pack

/-! ### The stack (20_memory R43 to R45) -/

/-- The address the stack pointer designates, `0x0100 + SP` (10_state R17). -/
def stackAddress (sp : Byte) : Word := 0x0100 + zext sp

/-- `Push(v)` (R43). -/
def State.push (s : State) (v : Byte) : State := (s.write (stackAddress s.sp) v).setSP (s.sp - 1)

/-- `Pull()`: the state after it (R44). -/
def State.pulled (s : State) : State := s.setSP (s.sp + 1)

/-- `Pull()`: the byte it returns (R44). -/
def State.pullByte (s : State) : Byte := s.read (stackAddress (s.sp + 1))

/-- `Push16(w)`: the high byte first (R45). -/
def State.push16 (s : State) (w : Word) : State := (s.push (hiByte w)).push (loByte w)

/-- `Pull16()`: the word it returns, low byte first (R45). -/
def State.pullWord (s : State) : Word := wordOf s.pullByte s.pulled.pullByte

/-! ### Fetching and re-arming (30_encoding R78, R80) -/

/-- `Fetch(mode)`: PC moves past the instruction's bytes, modulo 65536 (R78). -/
def State.fetched (s : State) (m : Mode) : State := s.setPC (s.pc + BitVec.ofNat 16 (modeLength m))

/-- `debt <- cost - 1` (R80). -/
def State.rearm (s : State) (cost : Nat) : State := { s with debt := cost - 1 }

/-- A Busy Step: `debt <- debt - 1` and nothing else (R77, R81). -/
def State.tick (s : State) : State := { s with debt := s.debt - 1 }

/-! ### Entering and leaving a handler (60_exceptions section 4; 46_flags_system R151, R152) -/

/-- The NMI vector (20_memory R46). -/
def nmiVector : Word := 0xFFFA

/-- The Reset vector (20_memory R46). -/
def resetVector : Word := 0xFFFC

/-- The vector IRQ and BRK share (20_memory R46; 60_exceptions R163). -/
def irqVector : Word := 0xFFFE

/-- The cost of the Reset, NMI and IRQ sequences (70 R179). -/
def sequenceCost : Nat := 7

/-- The one entry that BRK, NMI and IRQ share: push the return address, store B, push P, set I, load PC from the vector
(R151, R161). -/
def State.enter (s : State) (ret : Word) (brk : Bool) (vec : Word) : State :=
  let s₁ := s.push16 ret
  let s₂ := s₁.setFlags { s₁.flags with b := brk }
  let s₃ := s₂.push s₂.status
  let s₄ := s₃.setFlags { s₃.flags with i := true }
  s₄.setPC (s₄.read16 vec)

/-- The return from a handler: pull P, then PC, with no 1 added (R152). -/
def State.leave (s : State) : State :=
  let s₁ := s.pulled.setFlags (Flags.unpack s.pullByte)
  s₁.pulled.pulled.setPC s₁.pullWord

/-- `RunSequence(Reset)` with its debt (R160, R169). -/
def State.runReset (s : State) : State :=
  let s₁ := { s with resetPending := false, nmiPending := false }
  let s₂ := (s₁.setSP 0xFF).setFlags { s₁.flags with i := true, d := false }
  (s₂.setPC (s₂.read16 resetVector)).rearm sequenceCost

/-- `RunSequence(Nmi)` with its debt (R161). -/
def State.runNmi (s : State) : State :=
  (State.enter { s with nmiPending := false } s.pc false nmiVector).rearm sequenceCost

/-- `RunSequence(Irq)` with its debt (R161). -/
def State.runIrq (s : State) : State := (s.enter s.pc false irqVector).rearm sequenceCost

/-! ### The requests (10_state R30 to R32; 60_exceptions R158) -/

/-- `SetIrq(level)` (R30). -/
def setIrq (level : Bool) (s : State) : State := { s with irqLine := level }

/-- `SetNmi(level)`: a 0-to-1 edge latches a request (R31). -/
def setNmi (level : Bool) (s : State) : State :=
  { s with nmiPending := s.nmiPending || (level && !s.nmiLine), nmiLine := level }

/-- `AssertReset()` (R32). -/
def assertReset (s : State) : State := { s with resetPending := true }

/-- What `Sample` answers. -/
inductive Event where
  | noEvent | reset | nmi | irq
  deriving DecidableEq, Repr

/-- `Sample()`, in the order Reset, NMI, IRQ (R158, R159). -/
def sample (s : State) : Event :=
  if s.resetPending then .reset
  else if s.nmiPending then .nmi
  else if s.irqLine && !s.flags.i then .irq
  else .noEvent

/-! ### Fetching the next instruction (30_encoding R77, R78) -/

/-- The k-th byte after the opcode, at an address modulo 65536, read only where the opcode's mode has it (R53, R78). -/
def operandByte (s : State) (k : Nat) : Byte :=
  if k ≤ (descriptor (s.read s.pc)).operandCount then s.read (s.pc + BitVec.ofNat 16 k) else 0

/-- The instruction at PC. -/
def fetchInstr (s : State) : Instr := decodeOpcode (s.read s.pc) (operandByte s 1) (operandByte s 2)

/-- Stores a word's bits from a state's PC on, three bytes, low byte first, and makes the next Step an instruction
boundary with no request that would be taken (entry 4). -/
def placeAtPC (s : State) (bits : Nat) : State :=
  let s₁ := { s with
    debt := 0, resetPending := false, nmiPending := false, irqLine := s.irqLine && s.flags.i }
  ((s₁.write s.pc (BitVec.ofNat 8 bits)).write (s.pc + 1) (BitVec.ofNat 8 (bits / 256))).write (s.pc + 2)
    (BitVec.ofNat 8 (bits / 65536))

end Sys2Proof.Machine
end

