-- ==== Sys2Proof/Machine/Flags.lean ====
section
/-! DEFINITION. The ALU and flag engine, 6502_alu_flags: pure functions (43_alu_arith_logic R99 to R109, 44_shift_rotate
R125), and the flag updates of the state that use them. -/

namespace Sys2Proof.Machine

/-- A carry bit as a number. -/
def carryIn (c : Bool) : Nat := if c then 1 else 0

/-- The result byte and the four flags of an addition or a subtraction. -/
structure AluResult where
  res : Byte
  c : Bool
  v : Bool
  n : Bool
  z : Bool
  deriving DecidableEq, Repr

/-- `AddBin(a, m, c)` with the Z and N of `SetNZ(res)` (R100, R101). -/
def addBin (a m : Byte) (c : Bool) : AluResult :=
  let sum := a.toNat + m.toNat + carryIn c
  let res := BitVec.ofNat 8 sum
  { res := res
    c := decide (sum > 255)
    v := ((a ^^^ res) &&& (m ^^^ res) &&& 0x80) != 0
    n := res.getLsbD 7
    z := res == 0 }

/-- `SubBin(a, m, c) = AddBin(a, ~m, c)` (R102). -/
def subBin (a m : Byte) (c : Bool) : AluResult := addBin a (~~~m) c

/-- The low digit of `AddDec`, with its carry into the high digit as 0x10 (R103). -/
def addDecLow (a m : Byte) (c : Bool) : Nat :=
  let al := (a &&& 0x0F).toNat + (m &&& 0x0F).toNat + carryIn c
  if al ≥ 0x0A then (al + 0x06) % 0x10 + 0x10 else al

/-- The sum of `AddDec` before the high-digit adjustment (R103). -/
def addDecSum (a m : Byte) (c : Bool) : Nat := (a &&& 0xF0).toNat + (m &&& 0xF0).toNat + addDecLow a m c

/-- The same sum with the high digits read as signed (R103). -/
def addDecSigned (a m : Byte) (c : Bool) : Int := (a &&& 0xF0).toInt + (m &&& 0xF0).toInt + addDecLow a m c

/-- `AddDec(a, m, c)`, the NMOS decimal addition (R103): Z from the binary sum, N and V from the sum before the
high-digit adjustment. -/
def addDec (a m : Byte) (c : Bool) : AluResult :=
  let sum := addDecSum a m c
  let adjusted := if sum ≥ 0xA0 then sum + 0x60 else sum
  { res := BitVec.ofNat 8 adjusted
    c := decide (adjusted ≥ 0x100)
    v := decide (addDecSigned a m c < -128) || decide (addDecSigned a m c > 127)
    n := sum.testBit 7
    z := BitVec.ofNat 8 (a.toNat + m.toNat + carryIn c) == 0 }

/-- `SubDec(a, m, c)`, the NMOS decimal subtraction (R104). -/
def subDec (a m : Byte) (c : Bool) : Byte :=
  let al : Int := (a &&& 0x0F).toNat - (m &&& 0x0F).toNat + carryIn c - 1
  let low : Int := if al < 0 then (al - 0x06) % 0x10 - 0x10 else al
  let diff : Int := (a &&& 0xF0).toNat - (m &&& 0xF0).toNat + low
  BitVec.ofInt 8 (if diff < 0 then diff - 0x60 else diff)

/-- `AluAdc(a, m, c)`: decimal when the D flag and DECIMAL_ENABLED are both 1 (R105). -/
def aluAdc (decimalEnabled d : Bool) (a m : Byte) (c : Bool) : AluResult :=
  if d && decimalEnabled then addDec a m c else addBin a m c

/-- `AluSbc(a, m, c)`: the flags are the binary ones, only the result is decimal (R106). -/
def aluSbc (decimalEnabled d : Bool) (a m : Byte) (c : Bool) : AluResult :=
  if d && decimalEnabled then { subBin a m c with res := subDec a m c } else subBin a m c

/-! ### Shift functions (44_shift_rotate R125): the result and the carry out -/

/-- `Asl(v)`. -/
def asl (v : Byte) : Byte × Bool := (v <<< 1, v.getLsbD 7)

/-- `Lsr(v)`. -/
def lsr (v : Byte) : Byte × Bool := (v >>> 1, v.getLsbD 0)

/-- `Rol(v, c)`. -/
def rol (v : Byte) (c : Bool) : Byte × Bool := ((v <<< 1) ||| bitAt c 0, v.getLsbD 7)

/-- `Ror(v, c)`. -/
def ror (v : Byte) (c : Bool) : Byte × Bool := ((v >>> 1) ||| bitAt c 7, v.getLsbD 0)

/-! ### Flag updates -/

/-- `SetNZ(v)` on the flags (43 R100). -/
def Flags.setNZ (f : Flags) (v : Byte) : Flags := { f with z := v == 0, n := v.getLsbD 7 }

/-- `Compare(reg, m)` on the flags (43 R107). -/
def Flags.compare (f : Flags) (reg m : Byte) : Flags :=
  { f with c := decide (m.toNat ≤ reg.toNat), z := reg == m, n := (reg - m).getLsbD 7 }

/-- The flags of BIT (43 R115). -/
def Flags.bitTest (f : Flags) (a m : Byte) : Flags :=
  { f with z := (a &&& m) == 0, n := m.getLsbD 7, v := m.getLsbD 6 }

/-- C and then `SetNZ` of a shift's result (44 R125). -/
def Flags.shifted (f : Flags) (r : Byte × Bool) : Flags := { f.setNZ r.1 with c := r.2 }

/-- N, V, Z and C of an addition or a subtraction (43 R110, R111). -/
def Flags.arith (f : Flags) (r : AluResult) : Flags := { f with c := r.c, v := r.v, n := r.n, z := r.z }

/-- `SetNZ(v)` on the state (43 R100). -/
def State.setNZ (s : State) (v : Byte) : State := s.setFlags (s.flags.setNZ v)

end Sys2Proof.Machine
end

