-- ==== Sys2Proof/Machine/Operands.lean ====
section
/-! DEFINITION. The address resolver (30_encoding section 2) and the cycles an operand costs (70_reset_and_hazards
section 3). The resolver reads X, Y, PC and memory and writes nothing (R54). -/

namespace Sys2Proof.Machine

/-- The `Address(ea)` and `crossed` of a resolved operand (R54). Its other kinds need no resolving: `Immediate(v)` and
`Accumulator` stand in the operand itself, `None` is the absence of an operand. -/
structure Resolved where
  ea : Word
  crossed : Bool
  deriving DecidableEq, Repr

/-- An address with no page crossing. -/
def atAddress (ea : Word) : Resolved := { ea := ea, crossed := false }

/-- `ea = (base + index) mod 65536`, `crossed = (hi(base) ≠ hi(ea))` (R63, R64, R67). -/
def indexed (base : Word) (index : Byte) : Resolved :=
  { ea := base + zext index, crossed := hiByte base != hiByte (base + zext index) }

/-- The resolver of the memory modes (R59 to R64, R66, R67). -/
def resolve (m : MemOperand) (s : State) : Resolved :=
  match m with
  | .zeroPage b => atAddress (zext b)
  | .zeroPageX b => atAddress (zext (b + s.x))
  | .zeroPageY b => atAddress (zext (b + s.y))
  | .absolute w => atAddress w
  | .absoluteX w => indexed w s.x
  | .absoluteY w => indexed w s.y
  | .indirectX b => atAddress (s.read16ZP (b + s.x))
  | .indirectY b => indexed (s.read16ZP b) s.y

/-- `Operand(r)`: the byte an instruction reads (R55, R58). -/
def operandValue (src : ReadOperand) (s : State) : Byte :=
  match src with
  | .immediate v => v
  | .memory m => s.read (resolve m s).ea

/-- The target of JMP: the operand word (R62), or the word read through it, whose high byte never leaves the pointer's
page (R65). -/
def jumpTarget (tgt : JumpOperand) (s : State) : Word :=
  match tgt with
  | .absolute w => w
  | .indirect ptr => wordOf (s.read ptr) (s.read ((ptr &&& 0xFF00) ||| ((ptr + 1) &&& 0x00FF)))

/-- Relative mode: the target and whether it lies in another page than the address after the branch (R68). -/
def branchTarget (pcn : Word) (d : Byte) : Resolved :=
  { ea := pcn + sext d, crossed := hiByte pcn != hiByte (pcn + sext d) }

/-! ### Cycle costs (30_encoding R74, 70 R175 to R178) -/

/-- The base cycles of an instruction that reads its operand in memory (R74: ADC, AND, BIT, CMP, CPX, CPY, EOR, LDA,
LDX, LDY, ORA, SBC). -/
def readMemBase : MemOperand → Nat
  | .zeroPage _ => 3
  | .zeroPageX _ => 4
  | .zeroPageY _ => 4
  | .absolute _ => 4
  | .absoluteX _ => 4
  | .absoluteY _ => 4
  | .indirectX _ => 6
  | .indirectY _ => 5

/-- The page-crossing cycle of an instruction that is not of the write class (R177). -/
def pageCycle (m : MemOperand) (s : State) : Nat := if (resolve m s).crossed then 1 else 0

/-- The realised cost of reading an operand in memory (R80, R177). -/
def readMemCost (m : MemOperand) (s : State) : Nat := readMemBase m + pageCycle m s

/-- The realised cost of an instruction that reads its operand: Immediate costs 2 (R74). -/
def readCost (src : ReadOperand) (s : State) : Nat :=
  match src with
  | .immediate _ => 2
  | .memory m => readMemCost m s

/-- The cost of STA, STX and STY, which are of the write class and take no page-crossing cycle (R74, R176). -/
def storeCost : MemOperand → Nat
  | .zeroPage _ => 3
  | .zeroPageX _ => 4
  | .zeroPageY _ => 4
  | .absolute _ => 4
  | .absoluteX _ => 5
  | .absoluteY _ => 5
  | .indirectX _ => 6
  | .indirectY _ => 6

/-- The cost of a read-modify-write instruction on memory, of the write class (R74, R176). -/
def rmwCost : RmwOperand → Nat
  | .zeroPage _ => 5
  | .zeroPageX _ => 6
  | .absolute _ => 6
  | .absoluteX _ => 7

/-- The cost of a shift (R74). -/
def shiftCost : ShiftOperand → Nat
  | .accumulator => 2
  | .memory m => rmwCost m

/-- The cost of JMP (R74). -/
def jumpCost : JumpOperand → Nat
  | .absolute _ => 3
  | .indirect _ => 5

/-- The cost of a branch: base 2, and `extra` (R178; 45 R134). -/
def branchCost (taken crossed : Bool) : Nat := if taken then (if crossed then 4 else 3) else 2

end Sys2Proof.Machine
end

