-- ==== Sys2Proof/Machine/Arithmetic.lean ====
section
/-! DEFINITION. The meanings of the arithmetic, logic, compare, increment and decrement instructions (43_alu_arith_logic section 2). -/

namespace Sys2Proof.Machine

/-- An addition or a subtraction into A: the result and N, V, Z, C (R110, R111). -/
def arithmetic (src : ReadOperand) (r : AluResult) (s : State) : State :=
  (((s.fetched src.mode).setA r.res).setFlags (s.flags.arith r)).rearm (readCost src s)

/-- ADC: `(res, C, V, N, Z) <- AluAdc(A, M, C); A <- res` (R110). -/
def execAdc (src : ReadOperand) (s : State) : Result :=
  .next (arithmetic src (aluAdc s.decimalEnabled s.flags.d s.a (operandValue src s) s.flags.c) s)

/-- SBC: `(res, C, V, N, Z) <- AluSbc(A, M, C); A <- res` (R111). -/
def execSbc (src : ReadOperand) (s : State) : Result :=
  .next (arithmetic src (aluSbc s.decimalEnabled s.flags.d s.a (operandValue src s) s.flags.c) s)

/-- A logic operation into A: the result and `SetNZ` of it (R108). -/
def logic (src : ReadOperand) (v : Byte) (s : State) : State :=
  (((s.fetched src.mode).setA v).setNZ v).rearm (readCost src s)

/-- AND (R112). -/
def execAnd (src : ReadOperand) (s : State) : Result := .next (logic src (s.a &&& operandValue src s) s)

/-- ORA (R113). -/
def execOra (src : ReadOperand) (s : State) : Result := .next (logic src (s.a ||| operandValue src s) s)

/-- EOR (R114). -/
def execEor (src : ReadOperand) (s : State) : Result := .next (logic src (s.a ^^^ operandValue src s) s)

/-- BIT: Z from `A & M`, N and V from M (R115). -/
def execBit (src : MemOperand) (s : State) : Result :=
  .next (((s.fetched src.mode).setFlags (s.flags.bitTest s.a (s.read (resolve src s).ea))).rearm (readMemCost src s))

/-- A comparison of a register with the operand: the flags of `Compare` and nothing else (R107). -/
def comparison (reg : Byte) (src : ReadOperand) (s : State) : State :=
  ((s.fetched src.mode).setFlags (s.flags.compare reg (operandValue src s))).rearm (readCost src s)

/-- CMP: `Compare(A, M)` (R116). -/
def execCmp (src : ReadOperand) (s : State) : Result := .next (comparison s.a src s)

/-- CPX: `Compare(X, M)` (R117). -/
def execCpx (src : ReadOperand) (s : State) : Result := .next (comparison s.x src s)

/-- CPY: `Compare(Y, M)` (R118). -/
def execCpy (src : ReadOperand) (s : State) : Result := .next (comparison s.y src s)

/-- A read-modify-write of memory: the new byte and `SetNZ` of it (R119, R120). -/
def writeBack (dst : RmwOperand) (v : Byte) (s : State) : State :=
  (((s.fetched dst.toMem.mode).write (resolve dst.toMem s).ea v).setNZ v).rearm (rmwCost dst)

/-- INC: `v <- Inc(M); MemWrite(ea, v); SetNZ(v)` (R119). -/
def execInc (dst : RmwOperand) (s : State) : Result :=
  .next (writeBack dst (s.read (resolve dst.toMem s).ea + 1) s)

/-- DEC: `v <- Dec(M); MemWrite(ea, v); SetNZ(v)` (R120). -/
def execDec (dst : RmwOperand) (s : State) : Result :=
  .next (writeBack dst (s.read (resolve dst.toMem s).ea - 1) s)

/-- A step of an index register by one: the new value and `SetNZ` of it (R109). -/
def stepIndex (set : State → Byte → State) (v : Byte) (s : State) : State :=
  ((set (s.fetched .implied) v).setNZ v).rearm 2

/-- INX: `X <- Inc(X); SetNZ(X)` (R121). -/
def execInx (s : State) : Result := .next (stepIndex State.setX (s.x + 1) s)

/-- INY: `Y <- Inc(Y); SetNZ(Y)` (R122). -/
def execIny (s : State) : Result := .next (stepIndex State.setY (s.y + 1) s)

/-- DEX: `X <- Dec(X); SetNZ(X)` (R123). -/
def execDex (s : State) : Result := .next (stepIndex State.setX (s.x - 1) s)

/-- DEY: `Y <- Dec(Y); SetNZ(Y)` (R124). -/
def execDey (s : State) : Result := .next (stepIndex State.setY (s.y - 1) s)

end Sys2Proof.Machine
end

