-- ==== Sys2Proof/Machine/Control.lean ====
section
/-! DEFINITION. The meanings of JMP, JSR, RTS and the eight branches (45_control_transfer). -/

namespace Sys2Proof.Machine

/-- JMP: `PC <- ea` (R131). -/
def execJmp (tgt : JumpOperand) (s : State) : Result :=
  .next (((s.fetched tgt.mode).setPC (jumpTarget tgt s)).rearm (jumpCost tgt))

/-- JSR: pushes the address of its own last byte, `PCn - 1`; `PC <- ea` (R132). -/
def execJsr (w : Word) (s : State) : Result :=
  let s₁ := s.fetched .absolute
  .next (((s₁.push16 (s₁.pc - 1)).setPC w).rearm 6)

/-- RTS: `PC <- Pull16() + 1` (R133). -/
def execRts (s : State) : Result :=
  let s₁ := s.fetched .implied
  .next ((s₁.pulled.pulled.setPC (s₁.pullWord + 1)).rearm 6)

/-- The common branch: PC moves to the target if the condition holds and stays after the branch otherwise (R134). -/
def branch (taken : Bool) (d : Byte) (s : State) : State :=
  let s₁ := s.fetched .relative
  let r := branchTarget s₁.pc d
  (if taken then s₁.setPC r.ea else s₁).rearm (branchCost taken r.crossed)

/-- BCC: taken when C = 0 (R135). -/
def execBcc (d : Byte) (s : State) : Result := .next (branch (!s.flags.c) d s)

/-- BCS: taken when C = 1 (R136). -/
def execBcs (d : Byte) (s : State) : Result := .next (branch s.flags.c d s)

/-- BEQ: taken when Z = 1 (R137). -/
def execBeq (d : Byte) (s : State) : Result := .next (branch s.flags.z d s)

/-- BMI: taken when N = 1 (R138). -/
def execBmi (d : Byte) (s : State) : Result := .next (branch s.flags.n d s)

/-- BNE: taken when Z = 0 (R139). -/
def execBne (d : Byte) (s : State) : Result := .next (branch (!s.flags.z) d s)

/-- BPL: taken when N = 0 (R140). -/
def execBpl (d : Byte) (s : State) : Result := .next (branch (!s.flags.n) d s)

/-- BVC: taken when V = 0 (R141). -/
def execBvc (d : Byte) (s : State) : Result := .next (branch (!s.flags.v) d s)

/-- BVS: taken when V = 1 (R142). -/
def execBvs (d : Byte) (s : State) : Result := .next (branch s.flags.v d s)

end Sys2Proof.Machine
end

