-- ==== Sys2Proof/Machine/Shifts.lean ====
section
/-! DEFINITION. The meanings of ASL, LSR, ROL and ROR (44_shift_rotate). -/

namespace Sys2Proof.Machine

/-- The byte a shift acts on: A, or the byte at its address (R126). -/
def shiftInput (dst : ShiftOperand) (s : State) : Byte :=
  match dst with
  | .accumulator => s.a
  | .memory m => s.read (resolve m.toMem s).ea

/-- Writes a shift's result where its operand came from, at the address resolved in the state `before` (R126). -/
def shiftWrite (dst : ShiftOperand) (v : Byte) (before s : State) : State :=
  match dst with
  | .accumulator => s.setA v
  | .memory m => s.write (resolve m.toMem before).ea v

/-- A shift: the result to its destination, C and `SetNZ` of the result (R125, R126). -/
def shift (dst : ShiftOperand) (r : Byte × Bool) (s : State) : State :=
  ((shiftWrite dst r.1 s (s.fetched dst.mode)).setFlags (s.flags.shifted r)).rearm (shiftCost dst)

/-- ASL (R127). -/
def execAsl (dst : ShiftOperand) (s : State) : Result := .next (shift dst (asl (shiftInput dst s)) s)

/-- LSR (R128). -/
def execLsr (dst : ShiftOperand) (s : State) : Result := .next (shift dst (lsr (shiftInput dst s)) s)

/-- ROL: the old C enters bit 0 (R129). -/
def execRol (dst : ShiftOperand) (s : State) : Result := .next (shift dst (rol (shiftInput dst s) s.flags.c) s)

/-- ROR: the old C enters bit 7 (R130). -/
def execRor (dst : ShiftOperand) (s : State) : Result := .next (shift dst (ror (shiftInput dst s) s.flags.c) s)

end Sys2Proof.Machine
end

