-- ==== Sys2Proof/Machine/Stack.lean ====
section
/-! DEFINITION. The meanings of PHA, PHP, PLA and PLP (42_stack). -/

namespace Sys2Proof.Machine

/-- PHA: `Push(A)` (R95). -/
def execPha (s : State) : Result := .next (((s.fetched .implied).push s.a).rearm 3)

/-- PHP: `Push(P | 0x30)`; the stored B is not changed (R96). -/
def execPhp (s : State) : Result := .next (((s.fetched .implied).push (s.status ||| 0x30)).rearm 3)

/-- PLA: `A <- Pull(); SetNZ(A)` (R97). -/
def execPla (s : State) : Result :=
  .next (((((s.fetched .implied).pulled).setA s.pullByte).setNZ s.pullByte).rearm 4)

/-- PLP: every flag from the pulled byte, whose bit 5 is ignored (R98). -/
def execPlp (s : State) : Result :=
  .next ((((s.fetched .implied).pulled).setFlags (Flags.unpack s.pullByte)).rearm 4)

end Sys2Proof.Machine
end

