-- ==== Sys2Proof/Machine/System.lean ====
section
/-! DEFINITION. The meanings of the flag instructions, NOP, BRK and RTI (46_flags_system) and of the unassigned opcodes (60_exceptions R154). -/

namespace Sys2Proof.Machine

/-- A one-byte, two-cycle instruction that only replaces the flags. -/
def flagsOnly (f : Flags) (s : State) : State := ((s.fetched .implied).setFlags f).rearm 2

/-- CLC: `C <- 0` (R143). -/
def execClc (s : State) : Result := .next (flagsOnly { s.flags with c := false } s)

/-- CLD: `D <- 0` (R144). -/
def execCld (s : State) : Result := .next (flagsOnly { s.flags with d := false } s)

/-- CLI: `I <- 0` (R145). -/
def execCli (s : State) : Result := .next (flagsOnly { s.flags with i := false } s)

/-- CLV: `V <- 0` (R146). -/
def execClv (s : State) : Result := .next (flagsOnly { s.flags with v := false } s)

/-- SEC: `C <- 1` (R147). -/
def execSec (s : State) : Result := .next (flagsOnly { s.flags with c := true } s)

/-- SED: `D <- 1` (R148). -/
def execSed (s : State) : Result := .next (flagsOnly { s.flags with d := true } s)

/-- SEI: `I <- 1` (R149). -/
def execSei (s : State) : Result := .next (flagsOnly { s.flags with i := true } s)

/-- NOP: PC moves past it, nothing else (R150). -/
def execNop (s : State) : Result := .next ((s.fetched .implied).rearm 2)

/-- BRK: enters through the IRQ/BRK vector with B = 1; the return address is the opcode's plus 2 (R151). -/
def execBrk (s : State) : Result :=
  let s₁ := s.fetched .implied
  .next ((s₁.enter (s₁.pc + 1) true irqVector).rearm 7)

/-- RTI: pulls P and then PC (R152). -/
def execRti (s : State) : Result := .next ((s.fetched .implied).leave.rearm 6)

/-- An unassigned opcode: InvalidOpcode, and no state changes (60_exceptions R154). -/
def execUnassigned (op : Byte) (_s : State) : Result := .fault (.invalidOpcode op)

end Sys2Proof.Machine
end

