-- ==== Sys2Proof/Machine/Transfers.lean ====
section
/-! DEFINITION. The meanings of LDA, LDX, LDY, STA, STX, STY and the register transfers (41_load_store_transfer). -/

namespace Sys2Proof.Machine

/-- LDA: `A <- M; SetNZ(A)` (R83). -/
def execLda (src : ReadOperand) (s : State) : Result :=
  let m := operandValue src s
  .next ((((s.fetched src.mode).setA m).setNZ m).rearm (readCost src s))

/-- LDX: `X <- M; SetNZ(X)` (R84). -/
def execLdx (src : ReadOperand) (s : State) : Result :=
  let m := operandValue src s
  .next ((((s.fetched src.mode).setX m).setNZ m).rearm (readCost src s))

/-- LDY: `Y <- M; SetNZ(Y)` (R85). -/
def execLdy (src : ReadOperand) (s : State) : Result :=
  let m := operandValue src s
  .next ((((s.fetched src.mode).setY m).setNZ m).rearm (readCost src s))

/-- STA: `MemWrite(ea, A)`, no flag (R86). -/
def execSta (dst : MemOperand) (s : State) : Result :=
  .next (((s.fetched dst.mode).write (resolve dst s).ea s.a).rearm (storeCost dst))

/-- STX: `MemWrite(ea, X)`, no flag (R87). -/
def execStx (dst : MemOperand) (s : State) : Result :=
  .next (((s.fetched dst.mode).write (resolve dst s).ea s.x).rearm (storeCost dst))

/-- STY: `MemWrite(ea, Y)`, no flag (R88). -/
def execSty (dst : MemOperand) (s : State) : Result :=
  .next (((s.fetched dst.mode).write (resolve dst s).ea s.y).rearm (storeCost dst))

/-- A transfer between registers: the value, put by `set`, and `SetNZ` of it; two cycles. -/
def transfer (set : State → Byte → State) (v : Byte) (s : State) : State :=
  ((set (s.fetched .implied) v).setNZ v).rearm 2

/-- TAX: `X <- A; SetNZ(X)` (R89). -/
def execTax (s : State) : Result := .next (transfer State.setX s.a s)

/-- TAY: `Y <- A; SetNZ(Y)` (R90). -/
def execTay (s : State) : Result := .next (transfer State.setY s.a s)

/-- TXA: `A <- X; SetNZ(A)` (R91). -/
def execTxa (s : State) : Result := .next (transfer State.setA s.x s)

/-- TYA: `A <- Y; SetNZ(A)` (R92). -/
def execTya (s : State) : Result := .next (transfer State.setA s.y s)

/-- TSX: `X <- SP; SetNZ(X)` (R93). -/
def execTsx (s : State) : Result := .next (transfer State.setX s.sp s)

/-- TXS: `SP <- X`, no flag (R94). -/
def execTxs (s : State) : Result := .next (((s.fetched .implied).setSP s.x).rearm 2)

end Sys2Proof.Machine
end

