-- ==== Sys2Proof/Machine/Step.lean ====
section
/-! DEFINITION. `Step()` (30_encoding R77) over the operations of Machine/Ops.lean, and how the host places an
instruction where it is fetched. -/

namespace Sys2Proof.Machine

/-- `Step()` (R77): a Busy call counts the debt down; at a boundary a request is taken, or else the instruction at PC
is fetched and executed. -/
def step (s : State) : Host.Outcome State Fault Refusal :=
  if 0 < s.debt then .next s.tick
  else
    match sample s with
    | .reset => .next s.runReset
    | .nmi => .next s.runNmi
    | .irq => .next s.runIrq
    | .noEvent => exec (fetchInstr s) s

/-- The state with the instruction of a row's bits at PC, so that the next step fetches and runs it: bits 7:0 are the
opcode, the operand bytes follow, and every bit from `nbits` up is 0, up to three bytes. -/
def State.withFetchWord (s : State) (nbits w : Nat) : State := placeAtPC s (w % 2 ^ nbits)

end Sys2Proof.Machine
end

