-- ==== Sys2Proof/Machine/Driver.lean ====
section
/-! DEFINITION. The driver's side of the block (10_state section 4): the status of a Step and the calls a driver makes
between Steps. -/

namespace Sys2Proof.Machine

/-- `StepStatus` (R29). -/
inductive StepStatus where
  | ok
  | invalidOpcode (opcode : Byte)
  deriving DecidableEq, Repr

/-- The status a Step reports (R29; 60_exceptions R154); `none` only for a refusal, which no instruction raises. -/
def stepStatus (s : State) : Option StepStatus :=
  match step s with
  | .next _ => some .ok
  | .fault (.invalidOpcode op) => some (.invalidOpcode op)
  | .refused _ => none

/-- The state a Step leaves: InvalidOpcode changes none of it (60_exceptions R154). -/
def afterStep (s : State) : State :=
  match step s with
  | .next t => t
  | .fault _ => s
  | .refused _ => s

/-- A write through the state port: one register, one set of flags, or one memory byte (R34). -/
inductive PortWrite where
  | a (v : Byte)
  | x (v : Byte)
  | y (v : Byte)
  | sp (v : Byte)
  | pc (w : Word)
  | flags (f : Flags)
  | mem (addr : Word) (v : Byte)
  deriving DecidableEq, Repr

/-- What a write through the state port does (R34). -/
def portWrite (w : PortWrite) (s : State) : State :=
  match w with
  | .a v => s.setA v
  | .x v => s.setX v
  | .y v => s.setY v
  | .sp v => s.setSP v
  | .pc w => s.setPC w
  | .flags f => s.setFlags f
  | .mem addr v => s.write addr v

/-- A call of the driver (R29 to R32, R34). The driver makes them one at a time. -/
inductive DriverCall where
  | step
  | setIrq (level : Bool)
  | setNmi (level : Bool)
  | assertReset
  | write (w : PortWrite)
  deriving DecidableEq, Repr

/-- The state after a driver's call. -/
def driverCall (c : DriverCall) (s : State) : State :=
  match c with
  | .step => afterStep s
  | .setIrq level => setIrq level s
  | .setNmi level => setNmi level s
  | .assertReset => assertReset s
  | .write w => portWrite w s

/-- The state after a sequence of calls, first call first. -/
def driverRun (calls : List DriverCall) (s : State) : State := calls.foldl (fun t c => driverCall c t) s

end Sys2Proof.Machine
end

