-- ==== Sys2Proof/Safety.lean ====
section
/-! DEFINITION. What claims are stated in: the invariant, the instruction boundary, what a step changes and what it
leaves as it was. -/

namespace Sys2Proof.Machine

/-- The invariant of the machine: the store is in its canonical form and the debt lies in 0 to 6 (10_state R25; 70
R180). -/
def State.Inv (s : State) : Prop := Memory.wf s.mem = true ∧ s.debt ≤ 6

/-- An instruction boundary at which no request is taken: the next Step fetches and executes (30_encoding R76, R77). -/
def State.Ready (s : State) : Prop := s.debt = 0 ∧ sample s = .noEvent

/-- An address of the stack page, 0x0100 to 0x01FF (10_state R17; 20_memory R46). -/
def OnStackPage (a : Word) : Prop := 0x0100 ≤ a.toNat ∧ a.toNat ≤ 0x01FF

/-- A safe outcome: a next state. The machine's only other outcome is InvalidOpcode (60_exceptions R153). -/
def Completes (r : Host.Outcome State Fault Refusal) : Prop := ∃ t, r = .next t

/-- Every byte of memory reads as before. -/
def SameMem (s t : State) : Prop := ∀ a : Word, t.read a = s.read a

/-- Every byte of memory but the one at `ea` reads as before. -/
def SameMemBut (s t : State) (ea : Word) : Prop := ∀ a : Word, a ≠ ea → t.read a = s.read a

/-- A, X, Y and SP are as before. -/
def SameRegs (s t : State) : Prop := t.a = s.a ∧ t.x = s.x ∧ t.y = s.y ∧ t.sp = s.sp

/-- X, Y and SP are as before. -/
def SameIndexSP (s t : State) : Prop := t.x = s.x ∧ t.y = s.y ∧ t.sp = s.sp

/-- A, X and Y are as before. -/
def SameAXY (s t : State) : Prop := t.a = s.a ∧ t.x = s.x ∧ t.y = s.y

/-- The requests, the lines and the configuration input are as before: what no instruction writes. -/
def SameControl (s t : State) : Prop :=
  t.resetPending = s.resetPending ∧ t.nmiPending = s.nmiPending ∧ t.nmiLine = s.nmiLine ∧ t.irqLine = s.irqLine ∧
    t.decimalEnabled = s.decimalEnabled

/-- PC is `len` bytes further, modulo 65536, and the instruction costs `cost` cycles: `debt = cost - 1` (30_encoding
R78, R80). -/
def Advances (s t : State) (len cost : Nat) : Prop :=
  t.pc.toNat = (s.pc.toNat + len) % 65536 ∧ t.debt + 1 = cost

/-- PC is `w`, and the instruction costs `cost` cycles. -/
def GoesTo (t : State) (w : Word) (cost : Nat) : Prop := t.pc = w ∧ t.debt + 1 = cost

/-- Z and N are those of `SetNZ(v)` and the other flags are as before (43 R100). -/
def SetsNZ (f g : Flags) (v : Byte) : Prop :=
  (g.z = true ↔ v = 0) ∧ (g.n = true ↔ 0x80 ≤ v.toNat) ∧ g.c = f.c ∧ g.i = f.i ∧ g.d = f.d ∧ g.b = f.b ∧ g.v = f.v

/-- The flags that ADC and SBC leave as they were: I, D and B (43 R110, R111). -/
def SameIDB (f g : Flags) : Prop := g.i = f.i ∧ g.d = f.d ∧ g.b = f.b

/-- A handler is entered: the return address and P, with B as given, lie on the stack, I is set, PC is the word at the
vector, and A, X, Y and the rest of memory are as before (46 R151; 60 R161). -/
def Entered (s t : State) (ret : Word) (brk : Bool) (vec : Word) : Prop :=
  t.read (stackAddress s.sp) = hiByte ret ∧ t.read (stackAddress (s.sp - 1)) = loByte ret ∧
  t.read (stackAddress (s.sp - 2)) = { s.flags with b := brk }.pack ∧ t.sp = s.sp - 3 ∧
  (∀ a, a ≠ stackAddress s.sp → a ≠ stackAddress (s.sp - 1) → a ≠ stackAddress (s.sp - 2) → t.read a = s.read a) ∧
  t.flags = { s.flags with b := brk, i := true } ∧ loByte t.pc = s.read vec ∧ hiByte t.pc = s.read (vec + 1) ∧
  SameAXY s t

/-- The number a byte stands for in binary-coded decimal. -/
def bcd (v : Byte) : Nat := v.toNat / 16 * 10 + v.toNat % 16

/-- Both digits of a byte are decimal digits. -/
def IsBcd (v : Byte) : Prop := v.toNat / 16 ≤ 9 ∧ v.toNat % 16 ≤ 9

end Sys2Proof.Machine
end

