-- ==== Sys2Proof/Certificates/Slice0/Obligations.lean ====
section
/-! DEFINITION. The statements for the provers, from the numbered rules of spec/. Each docstring names the rule or the
section it formalises; OBLIGATIONS.json lists them. -/

open Sys2Proof Sys2Proof.Machine

/-! ### Encoding (30_encoding sections 1 and 3) -/

/-- R51, R53, R70: the decoder reads back every well-formed instruction from its encoding, whatever bytes follow. -/
def Obligations.DecodeOfEncode : Prop :=
  ∀ i : Instr, i.WellFormed →
    ∃ bs, encode i = some bs ∧ bs.length = instrLength i ∧ ∀ rest, decode (bs ++ rest) = .instr i rest

/-- R51, R53, R70: whatever the decoder reads is well-formed, and its encoding is the very bytes it was read from. -/
def Obligations.EncodeOfDecode : Prop :=
  ∀ (bs : List Byte) (i : Instr) (rest : List Byte), decode bs = .instr i rest →
    i.WellFormed ∧ ∃ pre, encode i = some pre ∧ bs = pre ++ rest

/-- R70, R71, R75: exactly the 105 opcodes of R75 are unassigned, the other 151 are assigned, and an unassigned opcode
decodes to no assigned instruction, whatever bytes follow. -/
def Obligations.OpcodesAssignedAndUnassigned : Prop :=
  unassignedOpcodes.length = 105 ∧ unassignedOpcodes.Nodup ∧
  ((List.range 256).filter (fun n => decide (descriptor (BitVec.ofNat 8 n) = .unassigned))).length = 105 ∧
  ∀ op b1 b2 : Byte, (descriptor op = .unassigned ↔ op ∈ unassignedOpcodes) ∧
    (decodeOpcode op b1 b2 = .unassigned op ↔ op ∈ unassignedOpcodes)

/-- R82, R74: the byte sequences of the spec's syntax table, one for each mode, decode to the instructions they stand
for. -/
def Obligations.SyntaxTableBytesDecode : Prop :=
  decode [0x18] = .instr .clc [] ∧
  decode [0x0A] = .instr (.asl .accumulator) [] ∧
  decode [0xA9, 0x10] = .instr (.lda (.immediate 0x10)) [] ∧
  decode [0xA5, 0x10] = .instr (.lda (.memory (.zeroPage 0x10))) [] ∧
  decode [0xB5, 0x10] = .instr (.lda (.memory (.zeroPageX 0x10))) [] ∧
  decode [0xB6, 0x10] = .instr (.ldx (.memory (.zeroPageY 0x10))) [] ∧
  decode [0xAD, 0x34, 0x12] = .instr (.lda (.memory (.absolute 0x1234))) [] ∧
  decode [0xBD, 0x34, 0x12] = .instr (.lda (.memory (.absoluteX 0x1234))) [] ∧
  decode [0xB9, 0x34, 0x12] = .instr (.lda (.memory (.absoluteY 0x1234))) [] ∧
  decode [0x6C, 0x34, 0x12] = .instr (.jmp (.indirect 0x1234)) [] ∧
  decode [0xA1, 0x10] = .instr (.lda (.memory (.indirectX 0x10))) [] ∧
  decode [0xB1, 0x10] = .instr (.lda (.memory (.indirectY 0x10))) [] ∧
  decode [0xD0, 0xEE] = .instr (.bne 0xEE) []

/-! ### The step machine (30_encoding section 4, 60_exceptions, 70_reset_and_hazards) -/

/-- R77, R78: at a boundary where no request is taken, the Step is the execution of the instruction the bytes at PC
decode to. Nothing is done around it: the execution itself moves PC and re-arms the debt. -/
def Obligations.StepRunsTheDecodedInstruction : Prop :=
  ∀ (s : State) (i : Instr) (rest : List Byte), s.Ready →
    decode [s.read s.pc, s.read (s.pc + 1), s.read (s.pc + 2)] = .instr i rest → i.WellFormed → step s = exec i s

/-- R76, R81: a Busy Step counts the debt down by one and changes nothing else, whatever is requested meanwhile. -/
def Obligations.BusyStepOnlyCountsDown : Prop :=
  ∀ s : State, 0 < s.debt → ∃ t, step s = .next t ∧ t.debt + 1 = s.debt ∧ SameRegs s t ∧ t.pc = s.pc ∧
    t.flags = s.flags ∧ t.mem = s.mem ∧ SameControl s t

/-- R158: the order of `Sample`, and that the requests are sampled only at a boundary. -/
def Obligations.RequestsAreSampledInOrderAtABoundary : Prop :=
  ∀ s : State,
    (s.debt = 0 → s.resetPending = true → sample s = .reset ∧ step s = .next s.runReset) ∧
    (s.debt = 0 → s.resetPending = false → s.nmiPending = true → sample s = .nmi ∧ step s = .next s.runNmi) ∧
    (s.debt = 0 → s.resetPending = false → s.nmiPending = false → s.irqLine = true → s.flags.i = false →
      sample s = .irq ∧ step s = .next s.runIrq) ∧
    (s.debt = 0 → s.resetPending = false → s.nmiPending = false → (s.irqLine = false ∨ s.flags.i = true) →
      sample s = .noEvent ∧ step s = exec (fetchInstr s) s) ∧
    (0 < s.debt → step s = .next { s with debt := s.debt - 1 })

/-- R158, the source's property: an IRQ asserted while I is set changes nothing of what the Step does, but for the
level of the line itself. -/
def Obligations.MaskedIrqHasNoEffect : Prop :=
  ∀ (s t : State), s.flags.i = true → step { s with irqLine := false } = .next t →
    step { s with irqLine := true } = .next { t with irqLine := true }

/-- R145, R149, R173: a change of I by CLI or SEI is in force at the very next boundary: an IRQ line at 1 is taken there
after CLI, before another instruction, and not after SEI. -/
def Obligations.CliAndSeiAreInForceAtTheNextBoundary : Prop :=
  ∀ s t u : State, s.irqLine = true → s.resetPending = false → s.nmiPending = false →
    (exec .cli s = .next t → Sys2Proof.core.run t.debt t = .next u → u.debt = 0 ∧ step u = .next u.runIrq) ∧
    (exec .sei s = .next t → Sys2Proof.core.run t.debt t = .next u → u.Ready ∧ step u = exec (fetchInstr u) u)

/-- R160: the Reset sequence. -/
def Obligations.ResetSequenceEffect : Prop :=
  ∀ s : State, s.debt = 0 → s.resetPending = true →
    ∃ t, step s = .next t ∧ t.resetPending = false ∧ t.nmiPending = false ∧ t.sp = 0xFF ∧
      t.flags = { s.flags with i := true, d := false } ∧ loByte t.pc = s.read 0xFFFC ∧ hiByte t.pc = s.read 0xFFFD ∧
      t.debt = 6 ∧ SameAXY s t ∧ t.mem = s.mem ∧ t.nmiLine = s.nmiLine ∧ t.irqLine = s.irqLine ∧
      t.decimalEnabled = s.decimalEnabled

/-- R161: the NMI and IRQ sequences. The pushed status has bit 4 = 0 and bit 5 = 1. -/
def Obligations.InterruptSequencesEffect : Prop :=
  ∀ s : State, s.debt = 0 → s.resetPending = false →
    (s.nmiPending = true → ∃ t, step s = .next t ∧ Entered s t s.pc false 0xFFFA ∧ t.nmiPending = false ∧
      t.resetPending = false ∧ t.nmiLine = s.nmiLine ∧ t.irqLine = s.irqLine ∧ t.decimalEnabled = s.decimalEnabled ∧
      t.debt = 6 ∧ (t.read (stackAddress (s.sp - 2))).getLsbD 4 = false ∧
      (t.read (stackAddress (s.sp - 2))).getLsbD 5 = true) ∧
    (s.nmiPending = false → s.irqLine = true → s.flags.i = false → ∃ t, step s = .next t ∧
      Entered s t s.pc false 0xFFFE ∧ SameControl s t ∧ t.debt = 6 ∧
      (t.read (stackAddress (s.sp - 2))).getLsbD 4 = false ∧ (t.read (stackAddress (s.sp - 2))).getLsbD 5 = true)

/-- R154: an unassigned opcode stops the Step with InvalidOpcode, changes no state, and is reported again by every
further Step. -/
def Obligations.UnassignedOpcodeIsReportedAndChangesNothing : Prop :=
  (∀ (op : Byte) (s : State), exec (.unassigned op) s = .fault (.invalidOpcode op)) ∧
  ∀ (s : State) (k : Nat), s.Ready → s.read s.pc ∈ unassignedOpcodes →
    step s = .fault (.invalidOpcode (s.read s.pc)) ∧ stepStatus s = some (.invalidOpcode (s.read s.pc)) ∧
    driverRun (List.replicate k .step) s = s

/-- R153, R42: InvalidOpcode is the only way a Step ends in anything but a next state. -/
def Obligations.OnlyUnassignedOpcodesStopTheMachine : Prop :=
  ∀ s : State, Completes (step s) ∨
    (s.Ready ∧ s.read s.pc ∈ unassignedOpcodes ∧ step s = .fault (.invalidOpcode (s.read s.pc)))

/-- R169: from a Reset request at a boundary, seven Steps run the sequence and its Busy calls, and leave a boundary at
which the instruction at the Reset vector is fetched. -/
def Obligations.SeventhStepAfterResetIsABoundary : Prop :=
  ∀ s : State, s.debt = 0 → s.resetPending = true →
    ∃ t, Sys2Proof.core.run 7 s = .next t ∧ t.Ready ∧ loByte t.pc = s.read 0xFFFC ∧ hiByte t.pc = s.read 0xFFFD ∧
      (∀ k, 1 ≤ k → k < 7 → ∃ u : State, Sys2Proof.core.run k s = .next u ∧ 0 < u.debt)

/-- R80, R81: the Busy calls after a Step are as many as its debt and leave the state it left, with the debt paid. -/
def Obligations.BusyCallsLastAsLongAsTheDebt : Prop :=
  ∀ (t : State) (k : Nat), k ≤ t.debt → Sys2Proof.core.run k t = .next { t with debt := t.debt - k }

/-- R168, R169, R28: the first Step from power-on runs the Reset sequence. The registers the spec leaves unspecified
hold the model's choice in both states (entries 2 and 3), and the memory lists nothing (entry 1). -/
def Obligations.FirstStepFromPowerOnIsReset : Prop :=
  step State.powerOn = .next State.reset ∧ State.reset.sp = 0xFF ∧ State.reset.flags.i = true ∧
    State.reset.flags.d = false ∧ State.reset.debt = 6 ∧ State.reset.resetPending = false ∧
    State.reset.nmiPending = false ∧ State.reset.pc = State.reset.read16 0xFFFC

/-- R25, R180 and the canonical form of the store: every step keeps the invariant. -/
def Obligations.StepKeepsInvariant : Prop := ∀ s t : State, s.Inv → step s = .next t → t.Inv

/-- R28: the invariant holds in the states the machine starts from. -/
def Obligations.StartingStatesHaveInvariant : Prop := State.reset.Inv ∧ State.powerOn.Inv

/-- R30 to R32, R34: every call of the driver keeps the invariant. -/
def Obligations.DriverCallsKeepInvariant : Prop := ∀ (c : DriverCall) (s : State), s.Inv → (driverCall c s).Inv

/-- R157, R160, R27: no Step writes a line or the configuration input. -/
def Obligations.StepNeverWritesLinesOrConfiguration : Prop :=
  ∀ s t : State, step s = .next t →
    t.nmiLine = s.nmiLine ∧ t.irqLine = s.irqLine ∧ t.decimalEnabled = s.decimalEnabled

/-- R155, R156: a pending Reset is cleared only by its own sequence, a pending NMI only by its own or by Reset's, and
no Step raises either. -/
def Obligations.PendingRequestsAreClearedOnlyByTheirSequences : Prop :=
  ∀ s t : State, step s = .next t →
    (t.resetPending = true → s.resetPending = true) ∧ (t.nmiPending = true → s.nmiPending = true) ∧
    (s.resetPending = true → t.resetPending = false → s.debt = 0 ∧ sample s = .reset) ∧
    (s.nmiPending = true → t.nmiPending = false → s.debt = 0 ∧ (sample s = .reset ∨ sample s = .nmi))

/-- R30, R31, R32: the driver's request operations. -/
def Obligations.RequestOperationsEffect : Prop :=
  ∀ (s : State) (level : Bool),
    setIrq level s = { s with irqLine := level } ∧
    (∀ t, step (setIrq level s) = .next t → t.irqLine = level) ∧
    setNmi level s =
      { s with nmiPending := if level = true ∧ s.nmiLine = false then true else s.nmiPending, nmiLine := level } ∧
    setNmi level (setNmi level s) = setNmi level s ∧
    assertReset s = { s with resetPending := true } ∧ assertReset (assertReset s) = assertReset s ∧
    (s.debt = 0 → step (assertReset s) = .next (assertReset s).runReset)

/-! ### Memory, stack and status (20_memory, 10_state) -/

/-- R40: the second byte of a zero-page pointer wraps within page 0, at 0xFF to 0x0000. -/
def Obligations.ZeroPagePointerWraps : Prop :=
  ∀ (s : State) (z : Byte),
    loByte (s.read16ZP z) = s.read (BitVec.ofNat 16 z.toNat) ∧
    hiByte (s.read16ZP z) = s.read (BitVec.ofNat 16 ((z.toNat + 1) % 256)) ∧
    hiByte (s.read16ZP 0xFF) = s.read 0x0000

/-- R43, R44, R45: the stack primitives. -/
def Obligations.PushAndPull : Prop :=
  ∀ (s : State) (v : Byte) (w : Word),
    ((stackAddress s.sp).toNat = 0x0100 + s.sp.toNat ∧ OnStackPage (stackAddress s.sp)) ∧
    ((s.push v).read (stackAddress s.sp) = v ∧ SameMemBut s (s.push v) (stackAddress s.sp) ∧
      (s.push v).sp.toNat = (s.sp.toNat + 255) % 256) ∧
    (s.pullByte = s.read (stackAddress (s.sp + 1)) ∧ s.pulled.sp.toNat = (s.sp.toNat + 1) % 256 ∧
      SameMem s s.pulled) ∧
    ((s.push v).pullByte = v ∧ (s.push v).pulled.sp = s.sp) ∧
    ((s.push16 w).read (stackAddress s.sp) = hiByte w ∧ (s.push16 w).read (stackAddress (s.sp - 1)) = loByte w ∧
      loByte s.pullWord = s.read (stackAddress (s.sp + 1)) ∧ hiByte s.pullWord = s.read (stackAddress (s.sp + 2)) ∧
      (s.push16 w).pullWord = w ∧ (s.push16 w).pulled.pulled.sp = s.sp)

/-- R20, R21: the layout of the packed status and its hard-wired bit 5. -/
def Obligations.PackedStatusLayout : Prop :=
  ∀ (f : Flags) (v : Byte),
    (f.pack.getLsbD 0 = f.c ∧ f.pack.getLsbD 1 = f.z ∧ f.pack.getLsbD 2 = f.i ∧ f.pack.getLsbD 3 = f.d ∧
      f.pack.getLsbD 4 = f.b ∧ f.pack.getLsbD 5 = true ∧ f.pack.getLsbD 6 = f.v ∧ f.pack.getLsbD 7 = f.n) ∧
    Flags.unpack f.pack = f ∧ (Flags.unpack v).pack = v ||| 0x20 ∧ Flags.unpack (v ^^^ 0x20) = Flags.unpack v

/-! ### The address resolver and the costs (30_encoding section 2, 70 section 3) -/

/-- R55, R58: the operand an instruction reads is the Immediate byte or the byte at the effective address. R59, R60, R63,
R64, R66, R67: the effective address and the crossing of each memory mode, in whole numbers. -/
def Obligations.ResolverComputesTheAddresses : Prop :=
  ∀ (s : State) (b : Byte) (w : Word),
    (operandValue (.immediate b) s = b ∧ ∀ m, operandValue (.memory m) s = s.read (resolve m s).ea) ∧
    (resolve (.zeroPage b) s = { ea := BitVec.ofNat 16 b.toNat, crossed := false }) ∧
    (resolve (.zeroPageX b) s = { ea := BitVec.ofNat 16 ((b.toNat + s.x.toNat) % 256), crossed := false }) ∧
    (resolve (.zeroPageY b) s = { ea := BitVec.ofNat 16 ((b.toNat + s.y.toNat) % 256), crossed := false }) ∧
    (resolve (.absolute w) s = { ea := w, crossed := false }) ∧
    ((resolve (.absoluteX w) s).ea.toNat = (w.toNat + s.x.toNat) % 65536 ∧
      ((resolve (.absoluteX w) s).crossed = true ↔ (w.toNat + s.x.toNat) % 65536 / 256 ≠ w.toNat / 256)) ∧
    ((resolve (.absoluteY w) s).ea.toNat = (w.toNat + s.y.toNat) % 65536 ∧
      ((resolve (.absoluteY w) s).crossed = true ↔ (w.toNat + s.y.toNat) % 65536 / 256 ≠ w.toNat / 256)) ∧
    (resolve (.indirectX b) s =
      { ea := wordOf (s.read (BitVec.ofNat 16 ((b.toNat + s.x.toNat) % 256)))
          (s.read (BitVec.ofNat 16 ((b.toNat + s.x.toNat + 1) % 256))), crossed := false }) ∧
    (∀ ptr, ptr = wordOf (s.read (BitVec.ofNat 16 b.toNat)) (s.read (BitVec.ofNat 16 ((b.toNat + 1) % 256))) →
      (resolve (.indirectY b) s).ea.toNat = (ptr.toNat + s.y.toNat) % 65536 ∧
      ((resolve (.indirectY b) s).crossed = true ↔ (ptr.toNat + s.y.toNat) % 65536 / 256 ≠ ptr.toNat / 256))

/-- R80, R175, R177, R178, R180: every instruction the decoder reads from an assigned opcode completes, at the base
cost of its row of R74 or above: by at most the page-crossing cycle where the mode is indexed and the instruction is not
of the write class, by at most two for a branch, not at all otherwise; and its cost lies in 2 to 7. -/
def Obligations.AssignedOpcodesCompleteAtTheTablesCost : Prop :=
  ∀ (op b1 b2 : Byte) (m : Mode) (ty : InstrType) (base : Nat) (s : State), descriptor op = .assigned m ty base →
    ∃ t, exec (decodeOpcode op b1 b2) s = .next t ∧ base ≤ t.debt + 1 ∧ 2 ≤ t.debt + 1 ∧ t.debt + 1 ≤ 7 ∧
      t.debt + 1 ≤ base +
        (if m = .relative then 2
          else if m ∈ [Mode.absoluteX, .absoluteY, .indirectY] ∧
            ty ∉ [InstrType.sta, .stx, .sty, .asl, .lsr, .rol, .ror, .inc, .dec] then 1 else 0)

/-- R74, R177: what reading an operand costs in each mode; the last cycle is the page-crossing cycle. -/
def Obligations.ReadCostByMode : Prop :=
  ∀ (s : State) (v b : Byte) (w : Word),
    readCost (.immediate v) s = 2 ∧ readCost (.memory (.zeroPage b)) s = 3 ∧
    readCost (.memory (.zeroPageX b)) s = 4 ∧ readCost (.memory (.zeroPageY b)) s = 4 ∧
    readCost (.memory (.absolute w)) s = 4 ∧ readCost (.memory (.indirectX b)) s = 6 ∧
    readCost (.memory (.absoluteX w)) s = (if (w.toNat + s.x.toNat) % 65536 / 256 ≠ w.toNat / 256 then 5 else 4) ∧
    readCost (.memory (.absoluteY w)) s = (if (w.toNat + s.y.toNat) % 65536 / 256 ≠ w.toNat / 256 then 5 else 4) ∧
    readCost (.memory (.indirectY b)) s =
      (if ((s.read16ZP b).toNat + s.y.toNat) % 65536 / 256 ≠ (s.read16ZP b).toNat / 256 then 6 else 5)

/-! ### Loads, stores, transfers (41_load_store_transfer) -/

/-- R83, R84, R85, R55, R58: LDA, LDX and LDY put the operand, the Immediate byte or the byte at the effective address,
in the register, set N and Z from it, and change nothing else. -/
def Obligations.LoadsPutTheOperandInTheRegister : Prop :=
  ∀ (src : ReadOperand) (s : State) (v : Byte),
    v = (match src with | .immediate b => b | .memory m => s.read (resolve m s).ea) →
    (∃ t, exec (.lda src) s = .next t ∧ t.a = v ∧ SetsNZ s.flags t.flags v ∧
      t.x = s.x ∧ t.y = s.y ∧ t.sp = s.sp ∧ SameMem s t ∧ SameControl s t ∧
      Advances s t (modeLength src.mode) (readCost src s)) ∧
    (∃ t, exec (.ldx src) s = .next t ∧ t.x = v ∧ SetsNZ s.flags t.flags v ∧
      t.a = s.a ∧ t.y = s.y ∧ t.sp = s.sp ∧ SameMem s t ∧ SameControl s t ∧
      Advances s t (modeLength src.mode) (readCost src s)) ∧
    (∃ t, exec (.ldy src) s = .next t ∧ t.y = v ∧ SetsNZ s.flags t.flags v ∧
      t.a = s.a ∧ t.x = s.x ∧ t.sp = s.sp ∧ SameMem s t ∧ SameControl s t ∧
      Advances s t (modeLength src.mode) (readCost src s))

/-- R86, R87, R88, R176: STA, STX and STY write the register at the effective address, change no flag, no register and
no other byte, and take the same cycles whether a page is crossed or not. -/
def Obligations.StoresWriteTheRegisterAtTheAddress : Prop :=
  ∀ (dst : MemOperand) (s : State) (cost : Nat),
    cost = (match dst with
      | .zeroPage _ => 3 | .zeroPageX _ => 4 | .zeroPageY _ => 4 | .absolute _ => 4
      | .absoluteX _ => 5 | .absoluteY _ => 5 | .indirectX _ => 6 | .indirectY _ => 6) →
    (∃ t, exec (.sta dst) s = .next t ∧ t.read (resolve dst s).ea = s.a ∧ SameMemBut s t (resolve dst s).ea ∧
      t.flags = s.flags ∧ SameRegs s t ∧ SameControl s t ∧ Advances s t (modeLength dst.mode) cost) ∧
    (∃ t, exec (.stx dst) s = .next t ∧ t.read (resolve dst s).ea = s.x ∧ SameMemBut s t (resolve dst s).ea ∧
      t.flags = s.flags ∧ SameRegs s t ∧ SameControl s t ∧ Advances s t (modeLength dst.mode) cost) ∧
    (∃ t, exec (.sty dst) s = .next t ∧ t.read (resolve dst s).ea = s.y ∧ SameMemBut s t (resolve dst s).ea ∧
      t.flags = s.flags ∧ SameRegs s t ∧ SameControl s t ∧ Advances s t (modeLength dst.mode) cost)

/-- R89 to R94: the six transfers, their opcodes, their flags and their frame. -/
def Obligations.TransfersCopyTheRegister : Prop :=
  ∀ (s : State) (rest : List Byte),
    (decode (0xAA :: rest) = .instr .tax rest ∧ ∃ t, exec .tax s = .next t ∧ t.x = s.a ∧
      SetsNZ s.flags t.flags s.a ∧ t.a = s.a ∧ t.y = s.y ∧ t.sp = s.sp ∧ SameMem s t ∧ SameControl s t ∧
      Advances s t 1 2) ∧
    (decode (0xA8 :: rest) = .instr .tay rest ∧ ∃ t, exec .tay s = .next t ∧ t.y = s.a ∧
      SetsNZ s.flags t.flags s.a ∧ t.a = s.a ∧ t.x = s.x ∧ t.sp = s.sp ∧ SameMem s t ∧ SameControl s t ∧
      Advances s t 1 2) ∧
    (decode (0x8A :: rest) = .instr .txa rest ∧ ∃ t, exec .txa s = .next t ∧ t.a = s.x ∧
      SetsNZ s.flags t.flags s.x ∧ t.x = s.x ∧ t.y = s.y ∧ t.sp = s.sp ∧ SameMem s t ∧ SameControl s t ∧
      Advances s t 1 2) ∧
    (decode (0x98 :: rest) = .instr .tya rest ∧ ∃ t, exec .tya s = .next t ∧ t.a = s.y ∧
      SetsNZ s.flags t.flags s.y ∧ t.x = s.x ∧ t.y = s.y ∧ t.sp = s.sp ∧ SameMem s t ∧ SameControl s t ∧
      Advances s t 1 2) ∧
    (decode (0xBA :: rest) = .instr .tsx rest ∧ ∃ t, exec .tsx s = .next t ∧ t.x = s.sp ∧
      SetsNZ s.flags t.flags s.sp ∧ t.a = s.a ∧ t.y = s.y ∧ t.sp = s.sp ∧ SameMem s t ∧ SameControl s t ∧
      Advances s t 1 2) ∧
    (decode (0x9A :: rest) = .instr .txs rest ∧ ∃ t, exec .txs s = .next t ∧ t.sp = s.x ∧ t.flags = s.flags ∧
      SameAXY s t ∧ SameMem s t ∧ SameControl s t ∧ Advances s t 1 2)

/-! ### Stack instructions (42_stack) -/

/-- R95, R96: PHA and PHP. The pushed status has bits 5 and 4 set whatever the stored B is. -/
def Obligations.PushInstructionsEffect : Prop :=
  ∀ (s : State) (rest : List Byte),
    (decode (0x48 :: rest) = .instr .pha rest ∧ ∃ t, exec .pha s = .next t ∧
      t.read (stackAddress s.sp) = s.a ∧ SameMemBut s t (stackAddress s.sp) ∧ t.sp = s.sp - 1 ∧ t.flags = s.flags ∧
      SameAXY s t ∧ SameControl s t ∧ Advances s t 1 3) ∧
    (decode (0x08 :: rest) = .instr .php rest ∧ ∃ t, exec .php s = .next t ∧
      t.read (stackAddress s.sp) = s.flags.pack ||| 0x30 ∧
      t.read (stackAddress s.sp) = { s.flags with b := true }.pack ∧ SameMemBut s t (stackAddress s.sp) ∧
      t.sp = s.sp - 1 ∧ t.flags = s.flags ∧ SameAXY s t ∧ SameControl s t ∧ Advances s t 1 3)

/-- R97, R98: PLA and PLP. -/
def Obligations.PullInstructionsEffect : Prop :=
  ∀ (s : State) (rest : List Byte) (v : Byte), v = s.read (stackAddress (s.sp + 1)) →
    (decode (0x68 :: rest) = .instr .pla rest ∧ ∃ t, exec .pla s = .next t ∧ t.a = v ∧
      SetsNZ s.flags t.flags v ∧ t.x = s.x ∧ t.y = s.y ∧ t.sp = s.sp + 1 ∧ SameMem s t ∧ SameControl s t ∧
      Advances s t 1 4) ∧
    (decode (0x28 :: rest) = .instr .plp rest ∧ ∃ t, exec .plp s = .next t ∧ t.sp = s.sp + 1 ∧
      t.flags.c = v.getLsbD 0 ∧ t.flags.z = v.getLsbD 1 ∧ t.flags.i = v.getLsbD 2 ∧ t.flags.d = v.getLsbD 3 ∧
      t.flags.b = v.getLsbD 4 ∧ t.flags.v = v.getLsbD 6 ∧ t.flags.n = v.getLsbD 7 ∧ t.flags.pack.getLsbD 5 = true ∧
      SameAXY s t ∧ SameMem s t ∧ SameControl s t ∧ Advances s t 1 4)

/-- R97, the source's round trip: PHA and then PLA give back A and SP, and set N and Z from A; PHP and then PLP give
back every flag but B, which is set. -/
def Obligations.PushThenPullRestores : Prop :=
  ∀ s t u : State,
    (exec .pha s = .next t → exec .pla t = .next u → u.a = s.a ∧ u.sp = s.sp ∧ SetsNZ s.flags u.flags s.a) ∧
    (exec .php s = .next t → exec .plp t = .next u → u.flags = { s.flags with b := true } ∧ u.sp = s.sp)

/-! ### Arithmetic and logic (43_alu_arith_logic) -/

/-- R101, R105, R110: ADC in binary, that is with D = 0 or DECIMAL_ENABLED false: the sum, its carry, and V exactly
when the signed sum lies outside -128 to 127. -/
def Obligations.AdcBinary : Prop :=
  ∀ (src : ReadOperand) (s : State) (sum : Nat) (signed : Int), s.flags.d = false ∨ s.decimalEnabled = false →
    sum = s.a.toNat + (operandValue src s).toNat + s.flags.c.toNat →
    signed = s.a.toInt + (operandValue src s).toInt + s.flags.c.toNat →
    ∃ t, exec (.adc src) s = .next t ∧ t.a.toNat = sum % 256 ∧ (t.flags.c = true ↔ 255 < sum) ∧
      (t.flags.v = true ↔ signed < -128 ∨ 127 < signed) ∧ (t.flags.z = true ↔ t.a = 0) ∧
      (t.flags.n = true ↔ 0x80 ≤ t.a.toNat) ∧ SameIDB s.flags t.flags ∧ SameIndexSP s t ∧ SameMem s t ∧
      SameControl s t ∧ Advances s t (modeLength src.mode) (readCost src s)

/-- R103, R105, R110: ADC in decimal, by the formula of R103 in whole numbers. -/
def Obligations.AdcDecimal : Prop :=
  ∀ (src : ReadOperand) (s : State) (a m c al0 al sum adj : Nat) (signed : Int),
    s.flags.d = true → s.decimalEnabled = true →
    a = s.a.toNat → m = (operandValue src s).toNat → c = s.flags.c.toNat →
    al0 = a % 16 + m % 16 + c → al = (if 10 ≤ al0 then (al0 + 6) % 16 + 16 else al0) →
    sum = a / 16 * 16 + m / 16 * 16 + al → adj = (if 160 ≤ sum then sum + 96 else sum) →
    signed = (if 128 ≤ a then (a / 16 * 16 : Int) - 256 else a / 16 * 16) +
      (if 128 ≤ m then (m / 16 * 16 : Int) - 256 else m / 16 * 16) + al →
    ∃ t, exec (.adc src) s = .next t ∧ t.a.toNat = adj % 256 ∧ (t.flags.c = true ↔ 256 ≤ adj) ∧
      (t.flags.v = true ↔ signed < -128 ∨ 127 < signed) ∧ (t.flags.z = true ↔ (a + m + c) % 256 = 0) ∧
      (t.flags.n = true ↔ sum / 128 % 2 = 1) ∧ SameIDB s.flags t.flags ∧ SameIndexSP s t ∧ SameMem s t ∧
      SameControl s t ∧ Advances s t (modeLength src.mode) (readCost src s)

/-- R103: on two numbers in binary-coded decimal ADC with D = 1 gives their decimal sum and its carry. -/
def Obligations.AdcDecimalAddsDecimalNumbers : Prop :=
  ∀ (src : ReadOperand) (s : State), s.flags.d = true → s.decimalEnabled = true → IsBcd s.a →
    IsBcd (operandValue src s) →
    ∃ t, exec (.adc src) s = .next t ∧ IsBcd t.a ∧
      bcd t.a + 100 * t.flags.c.toNat = bcd s.a + bcd (operandValue src s) + s.flags.c.toNat

/-- R102, R106, R111: SBC. The flags are those of the binary difference, whatever D holds; the result is the binary
difference unless D = 1 and DECIMAL_ENABLED. -/
def Obligations.SbcBinaryAndFlags : Prop :=
  ∀ (src : ReadOperand) (s : State) (diff signed : Int),
    diff = s.a.toNat - (operandValue src s).toNat - (1 - s.flags.c.toNat) →
    signed = s.a.toInt - (operandValue src s).toInt - (1 - s.flags.c.toNat) →
    ∃ t, exec (.sbc src) s = .next t ∧ (t.flags.c = true ↔ 0 ≤ diff) ∧
      (t.flags.v = true ↔ signed < -128 ∨ 127 < signed) ∧ (t.flags.z = true ↔ diff % 256 = 0) ∧
      (t.flags.n = true ↔ 128 ≤ diff % 256) ∧
      (s.flags.d = false ∨ s.decimalEnabled = false → (t.a.toNat : Int) = diff % 256) ∧
      SameIDB s.flags t.flags ∧ SameIndexSP s t ∧ SameMem s t ∧ SameControl s t ∧
      Advances s t (modeLength src.mode) (readCost src s)

/-- R104, R106, R111: the result of SBC in decimal, by the formula of R104. -/
def Obligations.SbcDecimal : Prop :=
  ∀ (src : ReadOperand) (s : State) (a m c al0 al diff : Int), s.flags.d = true → s.decimalEnabled = true →
    a = s.a.toNat → m = (operandValue src s).toNat → c = s.flags.c.toNat →
    al0 = a % 16 - m % 16 + c - 1 → al = (if al0 < 0 then (al0 - 6) % 16 - 16 else al0) →
    diff = a / 16 * 16 - m / 16 * 16 + al →
    ∃ t, exec (.sbc src) s = .next t ∧ (t.a.toNat : Int) = (if diff < 0 then diff - 96 else diff) % 256

/-- R104: on two numbers in binary-coded decimal SBC with D = 1 gives their decimal difference, and a borrow (C = 0)
stands for the 100 it borrowed. -/
def Obligations.SbcDecimalSubtractsDecimalNumbers : Prop :=
  ∀ (src : ReadOperand) (s : State), s.flags.d = true → s.decimalEnabled = true → IsBcd s.a →
    IsBcd (operandValue src s) →
    ∃ t, exec (.sbc src) s = .next t ∧ IsBcd t.a ∧
      bcd t.a + bcd (operandValue src s) + 1 = bcd s.a + s.flags.c.toNat + 100 * (1 - t.flags.c.toNat)

/-- R108, R112, R113, R114: AND, ORA and EOR act bit by bit on A and the operand, and set N and Z from the result. -/
def Obligations.LogicActsBitByBit : Prop :=
  ∀ (src : ReadOperand) (s : State),
    (∃ t, exec (.and src) s = .next t ∧
      (∀ k, t.a.getLsbD k = (s.a.getLsbD k && (operandValue src s).getLsbD k)) ∧ SetsNZ s.flags t.flags t.a ∧
      SameIndexSP s t ∧ SameMem s t ∧ SameControl s t ∧ Advances s t (modeLength src.mode) (readCost src s)) ∧
    (∃ t, exec (.ora src) s = .next t ∧
      (∀ k, t.a.getLsbD k = (s.a.getLsbD k || (operandValue src s).getLsbD k)) ∧ SetsNZ s.flags t.flags t.a ∧
      SameIndexSP s t ∧ SameMem s t ∧ SameControl s t ∧ Advances s t (modeLength src.mode) (readCost src s)) ∧
    (∃ t, exec (.eor src) s = .next t ∧
      (∀ k, t.a.getLsbD k = (s.a.getLsbD k != (operandValue src s).getLsbD k)) ∧ SetsNZ s.flags t.flags t.a ∧
      SameIndexSP s t ∧ SameMem s t ∧ SameControl s t ∧ Advances s t (modeLength src.mode) (readCost src s))

/-- R115: BIT takes N and V from the memory byte and Z from its conjunction with A, and changes nothing else. -/
def Obligations.BitTestsTheMemoryByte : Prop :=
  ∀ (src : MemOperand) (s : State) (m : Byte), m = s.read (resolve src s).ea →
    ∃ t, exec (.bit src) s = .next t ∧ (t.flags.z = true ↔ s.a &&& m = 0) ∧ t.flags.n = m.getLsbD 7 ∧
      t.flags.v = m.getLsbD 6 ∧ t.flags.c = s.flags.c ∧ SameIDB s.flags t.flags ∧ SameRegs s t ∧ SameMem s t ∧
      SameControl s t ∧ Advances s t (modeLength src.mode) (readCost (.memory src) s)

/-- R107, R116, R117, R118: CMP, CPX and CPY set C, Z and N as if subtracting, and change nothing else. -/
def Obligations.ComparesSetFlagsOnly : Prop :=
  ∀ (src : ReadOperand) (s : State) (m : Byte), m = operandValue src s →
    (∃ t, exec (.cmp src) s = .next t ∧ (t.flags.c = true ↔ m.toNat ≤ s.a.toNat) ∧ (t.flags.z = true ↔ s.a = m) ∧
      (t.flags.n = true ↔ 128 ≤ (s.a.toNat + 256 - m.toNat) % 256) ∧ t.flags.v = s.flags.v ∧
      SameIDB s.flags t.flags ∧ SameRegs s t ∧ SameMem s t ∧ SameControl s t ∧
      Advances s t (modeLength src.mode) (readCost src s)) ∧
    (∃ t, exec (.cpx src) s = .next t ∧ (t.flags.c = true ↔ m.toNat ≤ s.x.toNat) ∧ (t.flags.z = true ↔ s.x = m) ∧
      (t.flags.n = true ↔ 128 ≤ (s.x.toNat + 256 - m.toNat) % 256) ∧ t.flags.v = s.flags.v ∧
      SameIDB s.flags t.flags ∧ SameRegs s t ∧ SameMem s t ∧ SameControl s t ∧
      Advances s t (modeLength src.mode) (readCost src s)) ∧
    (∃ t, exec (.cpy src) s = .next t ∧ (t.flags.c = true ↔ m.toNat ≤ s.y.toNat) ∧ (t.flags.z = true ↔ s.y = m) ∧
      (t.flags.n = true ↔ 128 ≤ (s.y.toNat + 256 - m.toNat) % 256) ∧ t.flags.v = s.flags.v ∧
      SameIDB s.flags t.flags ∧ SameRegs s t ∧ SameMem s t ∧ SameControl s t ∧
      Advances s t (modeLength src.mode) (readCost src s))

/-- R109, R119, R120, R176: INC and DEC on memory, modulo 256, with N and Z from the result and no other change, at the
fixed cost of the write class. -/
def Obligations.IncDecMemory : Prop :=
  ∀ (dst : RmwOperand) (s : State) (ea : Word) (cost : Nat), ea = (resolve dst.toMem s).ea →
    cost = (match dst with | .zeroPage _ => 5 | .zeroPageX _ => 6 | .absolute _ => 6 | .absoluteX _ => 7) →
    (∃ t, exec (.inc dst) s = .next t ∧ (t.read ea).toNat = ((s.read ea).toNat + 1) % 256 ∧ SameMemBut s t ea ∧
      SetsNZ s.flags t.flags (t.read ea) ∧ SameRegs s t ∧ SameControl s t ∧
      Advances s t (modeLength dst.toMem.mode) cost) ∧
    (∃ t, exec (.dec dst) s = .next t ∧ (t.read ea).toNat = ((s.read ea).toNat + 255) % 256 ∧ SameMemBut s t ea ∧
      SetsNZ s.flags t.flags (t.read ea) ∧ SameRegs s t ∧ SameControl s t ∧
      Advances s t (modeLength dst.toMem.mode) cost)

/-- R121 to R124: INX, INY, DEX and DEY, their opcodes, modulo 256, with N and Z from the result and no other change. -/
def Obligations.IncDecIndexRegisters : Prop :=
  ∀ (s : State) (rest : List Byte),
    (decode (0xE8 :: rest) = .instr .inx rest ∧ ∃ t, exec .inx s = .next t ∧ t.x.toNat = (s.x.toNat + 1) % 256 ∧
      SetsNZ s.flags t.flags t.x ∧ t.a = s.a ∧ t.y = s.y ∧ t.sp = s.sp ∧ SameMem s t ∧ SameControl s t ∧
      Advances s t 1 2) ∧
    (decode (0xC8 :: rest) = .instr .iny rest ∧ ∃ t, exec .iny s = .next t ∧ t.y.toNat = (s.y.toNat + 1) % 256 ∧
      SetsNZ s.flags t.flags t.y ∧ t.a = s.a ∧ t.x = s.x ∧ t.sp = s.sp ∧ SameMem s t ∧ SameControl s t ∧
      Advances s t 1 2) ∧
    (decode (0xCA :: rest) = .instr .dex rest ∧ ∃ t, exec .dex s = .next t ∧ t.x.toNat = (s.x.toNat + 255) % 256 ∧
      SetsNZ s.flags t.flags t.x ∧ t.a = s.a ∧ t.y = s.y ∧ t.sp = s.sp ∧ SameMem s t ∧ SameControl s t ∧
      Advances s t 1 2) ∧
    (decode (0x88 :: rest) = .instr .dey rest ∧ ∃ t, exec .dey s = .next t ∧ t.y.toNat = (s.y.toNat + 255) % 256 ∧
      SetsNZ s.flags t.flags t.y ∧ t.a = s.a ∧ t.x = s.x ∧ t.sp = s.sp ∧ SameMem s t ∧ SameControl s t ∧
      Advances s t 1 2)

/-! ### Shifts (44_shift_rotate) -/

/-- R56, R125 to R130: the result and the carry of ASL, LSR, ROL and ROR in whole numbers, from A or the byte at the
effective address to the same place; V, I, D, B and everything else is unchanged. -/
def Obligations.ShiftsMoveOneBitThroughCarry : Prop :=
  ∀ (dst : ShiftOperand) (s : State) (v c : Nat),
    v = (match dst with | .accumulator => s.a.toNat | .memory m => (s.read (resolve m.toMem s).ea).toNat) →
    c = s.flags.c.toNat →
    ∀ (i : Instr) (res : Nat) (out : Bool),
      (i = .asl dst ∧ res = v * 2 % 256 ∧ out = decide (128 ≤ v)) ∨
      (i = .lsr dst ∧ res = v / 2 ∧ out = decide (v % 2 = 1)) ∨
      (i = .rol dst ∧ res = v * 2 % 256 + c ∧ out = decide (128 ≤ v)) ∨
      (i = .ror dst ∧ res = v / 2 + 128 * c ∧ out = decide (v % 2 = 1)) →
      ∃ t, exec i s = .next t ∧ SetsNZ { s.flags with c := out } t.flags (BitVec.ofNat 8 res) ∧ SameControl s t ∧
        t.x = s.x ∧ t.y = s.y ∧ t.sp = s.sp ∧
        match dst with
        | .accumulator => t.a.toNat = res ∧ SameMem s t ∧ Advances s t 1 2
        | .memory m =>
          t.a = s.a ∧ (t.read (resolve m.toMem s).ea).toNat = res ∧ SameMemBut s t (resolve m.toMem s).ea ∧
            Advances s t (modeLength m.toMem.mode)
              (match m with | .zeroPage _ => 5 | .zeroPageX _ => 6 | .absolute _ => 6 | .absoluteX _ => 7)

/-! ### Control transfer (45_control_transfer) -/

/-- R65, R131: JMP, with its opcodes. The high byte of an indirect target is read in the pointer's own page. -/
def Obligations.JmpGoesToTheTarget : Prop :=
  ∀ (s : State) (w : Word) (rest : List Byte),
    (decode (0x4C :: loByte w :: hiByte w :: rest) = .instr (.jmp (.absolute w)) rest ∧
      ∃ t, exec (.jmp (.absolute w)) s = .next t ∧ GoesTo t w 3 ∧ t.flags = s.flags ∧ SameRegs s t ∧ SameMem s t ∧
        SameControl s t) ∧
    (decode (0x6C :: loByte w :: hiByte w :: rest) = .instr (.jmp (.indirect w)) rest ∧
      ∃ t, exec (.jmp (.indirect w)) s = .next t ∧ loByte t.pc = s.read w ∧
        hiByte t.pc = s.read (BitVec.ofNat 16 (w.toNat / 256 * 256 + (w.toNat + 1) % 256)) ∧ t.debt + 1 = 5 ∧
        t.flags = s.flags ∧ SameRegs s t ∧ SameMem s t ∧ SameControl s t)

/-- R132: JSR, with its opcode: the address of its own last byte is pushed, the high byte first. -/
def Obligations.JsrPushesItsLastByteAddress : Prop :=
  ∀ (s : State) (w : Word) (rest : List Byte),
    decode (0x20 :: loByte w :: hiByte w :: rest) = .instr (.jsr w) rest ∧
    ∃ t, exec (.jsr w) s = .next t ∧ GoesTo t w 6 ∧ t.read (stackAddress s.sp) = hiByte (s.pc + 2) ∧
      t.read (stackAddress (s.sp - 1)) = loByte (s.pc + 2) ∧ t.sp = s.sp - 2 ∧
      (∀ a, a ≠ stackAddress s.sp → a ≠ stackAddress (s.sp - 1) → t.read a = s.read a) ∧ t.flags = s.flags ∧
      SameAXY s t ∧ SameControl s t

/-- R133: RTS, with its opcode: the pulled word plus 1. -/
def Obligations.RtsPullsTheReturnAddress : Prop :=
  ∀ (s : State) (rest : List Byte),
    decode (0x60 :: rest) = .instr .rts rest ∧
    (∃ t, exec .rts s = .next t ∧
      GoesTo t (wordOf (s.read (stackAddress (s.sp + 1))) (s.read (stackAddress (s.sp + 2))) + 1) 6 ∧
      t.sp = s.sp + 2 ∧ t.flags = s.flags ∧ SameAXY s t ∧ SameMem s t ∧ SameControl s t) ∧
    (∀ (w : Word) (t u : State), exec (.jsr w) s = .next t → exec .rts t = .next u → u.pc = s.pc + 3 ∧ u.sp = s.sp)

/-- R68, R134 to R142, R178: every branch tests its one flag; taken, it goes to the signed displacement from the address
after it; it costs 2 cycles not taken, 3 taken, 4 taken into another page; nothing else changes. -/
def Obligations.BranchesTestOneFlag : Prop :=
  ∀ (s : State) (d : Byte) (pcn target : Word) (i : Instr) (taken : Bool),
    pcn = s.pc + 2 → (target.toNat : Int) = ((pcn.toNat : Int) + d.toInt) % 65536 →
    (i, taken) ∈ [(.bcc d, !s.flags.c), (.bcs d, s.flags.c), (.beq d, s.flags.z), (.bne d, !s.flags.z),
      (.bmi d, s.flags.n), (.bpl d, !s.flags.n), (.bvc d, !s.flags.v), (.bvs d, s.flags.v)] →
    ∃ t, exec i s = .next t ∧ (taken = false → GoesTo t pcn 2) ∧
      (taken = true → GoesTo t target (if hiByte target = hiByte pcn then 3 else 4)) ∧ t.flags = s.flags ∧
      SameRegs s t ∧ SameMem s t ∧ SameControl s t

/-! ### Flags, NOP, BRK, RTI (46_flags_system) -/

/-- R143 to R150: the flag instructions write one flag, NOP none, each by its opcode, and nothing else but PC and the
debt changes. -/
def Obligations.FlagInstructionsWriteOneFlag : Prop :=
  ∀ (s : State) (op : Byte) (i : Instr) (f : Flags) (rest : List Byte),
    (op, i, f) ∈ [(0x18, .clc, { s.flags with c := false }), (0xD8, .cld, { s.flags with d := false }),
      (0x58, .cli, { s.flags with i := false }), (0xB8, .clv, { s.flags with v := false }),
      (0x38, .sec, { s.flags with c := true }), (0xF8, .sed, { s.flags with d := true }),
      (0x78, .sei, { s.flags with i := true }), (0xEA, .nop, s.flags)] →
    decode (op :: rest) = .instr i rest ∧
    ∃ t, exec i s = .next t ∧ t.flags = f ∧ SameRegs s t ∧ SameMem s t ∧ SameControl s t ∧ Advances s t 1 2

/-- R151: BRK, with its opcode: it enters through the IRQ/BRK vector whatever I holds, with the opcode's address plus 2
and a status whose bit 4 is 1 on the stack, at 7 cycles. -/
def Obligations.BrkEntersThroughTheIrqVector : Prop :=
  ∀ (s : State) (rest : List Byte),
    decode (0x00 :: rest) = .instr .brk rest ∧
    ∃ t, exec .brk s = .next t ∧ Entered s t (s.pc + 2) true 0xFFFE ∧ SameControl s t ∧ t.debt + 1 = 7 ∧
      (t.read (stackAddress (s.sp - 2))).getLsbD 4 = true ∧ (t.read (stackAddress (s.sp - 2))).getLsbD 5 = true

/-- R152: RTI, with its opcode: the flags from the pulled byte, bit 5 ignored, and then PC, with no 1 added. -/
def Obligations.RtiPullsStatusAndPc : Prop :=
  ∀ (s : State) (rest : List Byte) (v : Byte), v = s.read (stackAddress (s.sp + 1)) →
    decode (0x40 :: rest) = .instr .rti rest ∧
    ∃ t, exec .rti s = .next t ∧
      GoesTo t (wordOf (s.read (stackAddress (s.sp + 2))) (s.read (stackAddress (s.sp + 3)))) 6 ∧ t.sp = s.sp + 3 ∧
      t.flags.c = v.getLsbD 0 ∧ t.flags.z = v.getLsbD 1 ∧ t.flags.i = v.getLsbD 2 ∧ t.flags.d = v.getLsbD 3 ∧
      t.flags.b = v.getLsbD 4 ∧ t.flags.v = v.getLsbD 6 ∧ t.flags.n = v.getLsbD 7 ∧ SameAXY s t ∧ SameMem s t ∧
      SameControl s t

/-- R163, R164: RTI right after entering a handler gives back PC, SP and every flag but B, which tells BRK (1) from NMI
and IRQ (0). -/
def Obligations.RtiUndoesTheEntry : Prop :=
  ∀ s t u : State, exec .rti t = .next u →
    (exec .brk s = .next t → u.pc = s.pc + 2 ∧ u.sp = s.sp ∧ u.flags = { s.flags with b := true }) ∧
    (s.debt = 0 → sample s = .nmi ∨ sample s = .irq → step s = .next t →
      u.pc = s.pc ∧ u.sp = s.sp ∧ u.flags = { s.flags with b := false })

/-! ### Rules of the whole machine (10_state R14 to R23, R33) -/

/-- R14 to R17: the instructions that can change A, X, Y and SP, and that no interrupt sequence changes A, X or Y. -/
def Obligations.OnlyTheseInstructionsWriteTheRegisters : Prop :=
  (∀ (i : Instr) (s t : State), exec i s = .next t →
    ∃ ty m, i.form = .assigned ty m ∧
      (t.a ≠ s.a → ty ∈ [InstrType.adc, .sbc, .and, .ora, .eor, .lda, .txa, .tya, .pla] ∨
        (ty ∈ [InstrType.asl, .lsr, .rol, .ror] ∧ m = .accumulator)) ∧
      (t.x ≠ s.x → ty ∈ [InstrType.ldx, .tax, .tsx, .dex, .inx]) ∧
      (t.y ≠ s.y → ty ∈ [InstrType.ldy, .tay, .dey, .iny]) ∧
      (t.sp ≠ s.sp → ty ∈ [InstrType.txs, .pha, .php, .pla, .plp, .jsr, .rts, .brk, .rti])) ∧
  (∀ s t : State, step s = .next t → ¬ s.Ready → SameAXY s t)

/-- R23: the instructions that can change each flag. -/
def Obligations.OnlyTheseInstructionsWriteTheFlags : Prop :=
  ∀ (i : Instr) (s t : State), exec i s = .next t →
    ∃ ty m, i.form = .assigned ty m ∧
      (t.flags.c ≠ s.flags.c → ty ∈ [InstrType.adc, .sbc, .cmp, .cpx, .cpy, .asl, .lsr, .rol, .ror, .clc, .sec, .plp,
        .rti]) ∧
      (t.flags.z ≠ s.flags.z ∨ t.flags.n ≠ s.flags.n → ty ∈ [InstrType.adc, .sbc, .and, .ora, .eor, .bit, .cmp, .cpx,
        .cpy, .inc, .dec, .inx, .iny, .dex, .dey, .asl, .lsr, .rol, .ror, .lda, .ldx, .ldy, .tax, .tay, .txa, .tya,
        .tsx, .pla, .plp, .rti]) ∧
      (t.flags.i ≠ s.flags.i → ty ∈ [InstrType.cli, .sei, .plp, .rti, .brk]) ∧
      (t.flags.d ≠ s.flags.d → ty ∈ [InstrType.cld, .sed, .plp, .rti]) ∧
      (t.flags.b ≠ s.flags.b → ty ∈ [InstrType.brk, .plp, .rti]) ∧
      (t.flags.v ≠ s.flags.v → ty ∈ [InstrType.adc, .sbc, .bit, .clv, .plp, .rti])

/-- R33, R43, R45, R151, R176: an instruction that changes a byte is of the write class, and the byte is the one at its
effective address, or it is PHA, PHP, JSR or BRK, and the byte is one of those it pushes, which lie in the stack page. -/
def Obligations.OnlyTheseInstructionsWriteMemory : Prop :=
  ∀ (i : Instr) (s t : State) (a : Word), exec i s = .next t → t.read a ≠ s.read a →
    (∃ dst : MemOperand, i ∈ [Instr.sta dst, .stx dst, .sty dst] ∧ a = (resolve dst s).ea) ∨
    (∃ dst : RmwOperand, i ∈ [Instr.inc dst, .dec dst, .asl (.memory dst), .lsr (.memory dst), .rol (.memory dst),
      .ror (.memory dst)] ∧ a = (resolve dst.toMem s).ea) ∨
    (OnStackPage a ∧
      ((i ∈ [Instr.pha, .php] ∧ a = stackAddress s.sp) ∨
        (∃ w, i = .jsr w ∧ a ∈ [stackAddress s.sp, stackAddress (s.sp - 1)]) ∨
        (i = .brk ∧ a ∈ [stackAddress s.sp, stackAddress (s.sp - 1), stackAddress (s.sp - 2)])))

/-- R49, R172: a store into the instruction stream is seen by the next fetch: after STA to one of the two bytes that
follow it, the instruction fetched there is the one the new byte gives. -/
def Obligations.StoreIntoTheInstructionStreamIsFetched : Prop :=
  ∀ (dst : MemOperand) (s t : State), exec (.sta dst) s = .next t →
    ((resolve dst s).ea = t.pc → fetchInstr t = decodeOpcode s.a (operandByte t 1) (operandByte t 2)) ∧
    ((resolve dst s).ea = t.pc + 1 → 1 ≤ (descriptor (s.read t.pc)).operandCount →
      fetchInstr t = decodeOpcode (s.read t.pc) s.a (operandByte t 2))
end

