-- ==== Sys2Proof/Laws/State.lean ====
section
/-! SUPPORT. One lemma for each field of State and each update, true by definition, and the field projections of the
request lines. No later proof unfolds a record update. -/

namespace Sys2Proof.Machine

variable (s : State)

/-! ### setA -/

@[simp] theorem State.setA_a (v : Byte) : (s.setA v).a = v := rfl
@[simp] theorem State.setA_x (v : Byte) : (s.setA v).x = s.x := rfl
@[simp] theorem State.setA_y (v : Byte) : (s.setA v).y = s.y := rfl
@[simp] theorem State.setA_sp (v : Byte) : (s.setA v).sp = s.sp := rfl
@[simp] theorem State.setA_pc (v : Byte) : (s.setA v).pc = s.pc := rfl
@[simp] theorem State.setA_flags (v : Byte) : (s.setA v).flags = s.flags := rfl
@[simp] theorem State.setA_debt (v : Byte) : (s.setA v).debt = s.debt := rfl
@[simp] theorem State.setA_resetPending (v : Byte) : (s.setA v).resetPending = s.resetPending := rfl
@[simp] theorem State.setA_nmiPending (v : Byte) : (s.setA v).nmiPending = s.nmiPending := rfl
@[simp] theorem State.setA_nmiLine (v : Byte) : (s.setA v).nmiLine = s.nmiLine := rfl
@[simp] theorem State.setA_irqLine (v : Byte) : (s.setA v).irqLine = s.irqLine := rfl
@[simp] theorem State.setA_decimalEnabled (v : Byte) : (s.setA v).decimalEnabled = s.decimalEnabled := rfl
@[simp] theorem State.setA_mem (v : Byte) : (s.setA v).mem = s.mem := rfl

/-! ### setX -/

@[simp] theorem State.setX_a (v : Byte) : (s.setX v).a = s.a := rfl
@[simp] theorem State.setX_x (v : Byte) : (s.setX v).x = v := rfl
@[simp] theorem State.setX_y (v : Byte) : (s.setX v).y = s.y := rfl
@[simp] theorem State.setX_sp (v : Byte) : (s.setX v).sp = s.sp := rfl
@[simp] theorem State.setX_pc (v : Byte) : (s.setX v).pc = s.pc := rfl
@[simp] theorem State.setX_flags (v : Byte) : (s.setX v).flags = s.flags := rfl
@[simp] theorem State.setX_debt (v : Byte) : (s.setX v).debt = s.debt := rfl
@[simp] theorem State.setX_resetPending (v : Byte) : (s.setX v).resetPending = s.resetPending := rfl
@[simp] theorem State.setX_nmiPending (v : Byte) : (s.setX v).nmiPending = s.nmiPending := rfl
@[simp] theorem State.setX_nmiLine (v : Byte) : (s.setX v).nmiLine = s.nmiLine := rfl
@[simp] theorem State.setX_irqLine (v : Byte) : (s.setX v).irqLine = s.irqLine := rfl
@[simp] theorem State.setX_decimalEnabled (v : Byte) : (s.setX v).decimalEnabled = s.decimalEnabled := rfl
@[simp] theorem State.setX_mem (v : Byte) : (s.setX v).mem = s.mem := rfl

/-! ### setY -/

@[simp] theorem State.setY_a (v : Byte) : (s.setY v).a = s.a := rfl
@[simp] theorem State.setY_x (v : Byte) : (s.setY v).x = s.x := rfl
@[simp] theorem State.setY_y (v : Byte) : (s.setY v).y = v := rfl
@[simp] theorem State.setY_sp (v : Byte) : (s.setY v).sp = s.sp := rfl
@[simp] theorem State.setY_pc (v : Byte) : (s.setY v).pc = s.pc := rfl
@[simp] theorem State.setY_flags (v : Byte) : (s.setY v).flags = s.flags := rfl
@[simp] theorem State.setY_debt (v : Byte) : (s.setY v).debt = s.debt := rfl
@[simp] theorem State.setY_resetPending (v : Byte) : (s.setY v).resetPending = s.resetPending := rfl
@[simp] theorem State.setY_nmiPending (v : Byte) : (s.setY v).nmiPending = s.nmiPending := rfl
@[simp] theorem State.setY_nmiLine (v : Byte) : (s.setY v).nmiLine = s.nmiLine := rfl
@[simp] theorem State.setY_irqLine (v : Byte) : (s.setY v).irqLine = s.irqLine := rfl
@[simp] theorem State.setY_decimalEnabled (v : Byte) : (s.setY v).decimalEnabled = s.decimalEnabled := rfl
@[simp] theorem State.setY_mem (v : Byte) : (s.setY v).mem = s.mem := rfl

/-! ### setSP -/

@[simp] theorem State.setSP_a (v : Byte) : (s.setSP v).a = s.a := rfl
@[simp] theorem State.setSP_x (v : Byte) : (s.setSP v).x = s.x := rfl
@[simp] theorem State.setSP_y (v : Byte) : (s.setSP v).y = s.y := rfl
@[simp] theorem State.setSP_sp (v : Byte) : (s.setSP v).sp = v := rfl
@[simp] theorem State.setSP_pc (v : Byte) : (s.setSP v).pc = s.pc := rfl
@[simp] theorem State.setSP_flags (v : Byte) : (s.setSP v).flags = s.flags := rfl
@[simp] theorem State.setSP_debt (v : Byte) : (s.setSP v).debt = s.debt := rfl
@[simp] theorem State.setSP_resetPending (v : Byte) : (s.setSP v).resetPending = s.resetPending := rfl
@[simp] theorem State.setSP_nmiPending (v : Byte) : (s.setSP v).nmiPending = s.nmiPending := rfl
@[simp] theorem State.setSP_nmiLine (v : Byte) : (s.setSP v).nmiLine = s.nmiLine := rfl
@[simp] theorem State.setSP_irqLine (v : Byte) : (s.setSP v).irqLine = s.irqLine := rfl
@[simp] theorem State.setSP_decimalEnabled (v : Byte) : (s.setSP v).decimalEnabled = s.decimalEnabled := rfl
@[simp] theorem State.setSP_mem (v : Byte) : (s.setSP v).mem = s.mem := rfl

/-! ### setPC -/

@[simp] theorem State.setPC_a (w : Word) : (s.setPC w).a = s.a := rfl
@[simp] theorem State.setPC_x (w : Word) : (s.setPC w).x = s.x := rfl
@[simp] theorem State.setPC_y (w : Word) : (s.setPC w).y = s.y := rfl
@[simp] theorem State.setPC_sp (w : Word) : (s.setPC w).sp = s.sp := rfl
@[simp] theorem State.setPC_pc (w : Word) : (s.setPC w).pc = w := rfl
@[simp] theorem State.setPC_flags (w : Word) : (s.setPC w).flags = s.flags := rfl
@[simp] theorem State.setPC_debt (w : Word) : (s.setPC w).debt = s.debt := rfl
@[simp] theorem State.setPC_resetPending (w : Word) : (s.setPC w).resetPending = s.resetPending := rfl
@[simp] theorem State.setPC_nmiPending (w : Word) : (s.setPC w).nmiPending = s.nmiPending := rfl
@[simp] theorem State.setPC_nmiLine (w : Word) : (s.setPC w).nmiLine = s.nmiLine := rfl
@[simp] theorem State.setPC_irqLine (w : Word) : (s.setPC w).irqLine = s.irqLine := rfl
@[simp] theorem State.setPC_decimalEnabled (w : Word) : (s.setPC w).decimalEnabled = s.decimalEnabled := rfl
@[simp] theorem State.setPC_mem (w : Word) : (s.setPC w).mem = s.mem := rfl

/-! ### setFlags -/

@[simp] theorem State.setFlags_a (f : Flags) : (s.setFlags f).a = s.a := rfl
@[simp] theorem State.setFlags_x (f : Flags) : (s.setFlags f).x = s.x := rfl
@[simp] theorem State.setFlags_y (f : Flags) : (s.setFlags f).y = s.y := rfl
@[simp] theorem State.setFlags_sp (f : Flags) : (s.setFlags f).sp = s.sp := rfl
@[simp] theorem State.setFlags_pc (f : Flags) : (s.setFlags f).pc = s.pc := rfl
@[simp] theorem State.setFlags_flags (f : Flags) : (s.setFlags f).flags = f := rfl
@[simp] theorem State.setFlags_debt (f : Flags) : (s.setFlags f).debt = s.debt := rfl
@[simp] theorem State.setFlags_resetPending (f : Flags) : (s.setFlags f).resetPending = s.resetPending := rfl
@[simp] theorem State.setFlags_nmiPending (f : Flags) : (s.setFlags f).nmiPending = s.nmiPending := rfl
@[simp] theorem State.setFlags_nmiLine (f : Flags) : (s.setFlags f).nmiLine = s.nmiLine := rfl
@[simp] theorem State.setFlags_irqLine (f : Flags) : (s.setFlags f).irqLine = s.irqLine := rfl
@[simp] theorem State.setFlags_decimalEnabled (f : Flags) : (s.setFlags f).decimalEnabled = s.decimalEnabled := rfl
@[simp] theorem State.setFlags_mem (f : Flags) : (s.setFlags f).mem = s.mem := rfl

/-! ### write -/

@[simp] theorem State.write_a (e : Word) (v : Byte) : (s.write e v).a = s.a := rfl
@[simp] theorem State.write_x (e : Word) (v : Byte) : (s.write e v).x = s.x := rfl
@[simp] theorem State.write_y (e : Word) (v : Byte) : (s.write e v).y = s.y := rfl
@[simp] theorem State.write_sp (e : Word) (v : Byte) : (s.write e v).sp = s.sp := rfl
@[simp] theorem State.write_pc (e : Word) (v : Byte) : (s.write e v).pc = s.pc := rfl
@[simp] theorem State.write_flags (e : Word) (v : Byte) : (s.write e v).flags = s.flags := rfl
@[simp] theorem State.write_debt (e : Word) (v : Byte) : (s.write e v).debt = s.debt := rfl
@[simp] theorem State.write_resetPending (e : Word) (v : Byte) : (s.write e v).resetPending = s.resetPending := rfl
@[simp] theorem State.write_nmiPending (e : Word) (v : Byte) : (s.write e v).nmiPending = s.nmiPending := rfl
@[simp] theorem State.write_nmiLine (e : Word) (v : Byte) : (s.write e v).nmiLine = s.nmiLine := rfl
@[simp] theorem State.write_irqLine (e : Word) (v : Byte) : (s.write e v).irqLine = s.irqLine := rfl
@[simp] theorem State.write_decimalEnabled (e : Word) (v : Byte) : (s.write e v).decimalEnabled = s.decimalEnabled := rfl
@[simp] theorem State.write_mem (e : Word) (v : Byte) : (s.write e v).mem = memWrite s.mem e.toNat v := rfl

/-! ### setNZ -/

@[simp] theorem State.setNZ_a (v : Byte) : (s.setNZ v).a = s.a := rfl
@[simp] theorem State.setNZ_x (v : Byte) : (s.setNZ v).x = s.x := rfl
@[simp] theorem State.setNZ_y (v : Byte) : (s.setNZ v).y = s.y := rfl
@[simp] theorem State.setNZ_sp (v : Byte) : (s.setNZ v).sp = s.sp := rfl
@[simp] theorem State.setNZ_pc (v : Byte) : (s.setNZ v).pc = s.pc := rfl
@[simp] theorem State.setNZ_flags (v : Byte) : (s.setNZ v).flags = s.flags.setNZ v := rfl
@[simp] theorem State.setNZ_debt (v : Byte) : (s.setNZ v).debt = s.debt := rfl
@[simp] theorem State.setNZ_resetPending (v : Byte) : (s.setNZ v).resetPending = s.resetPending := rfl
@[simp] theorem State.setNZ_nmiPending (v : Byte) : (s.setNZ v).nmiPending = s.nmiPending := rfl
@[simp] theorem State.setNZ_nmiLine (v : Byte) : (s.setNZ v).nmiLine = s.nmiLine := rfl
@[simp] theorem State.setNZ_irqLine (v : Byte) : (s.setNZ v).irqLine = s.irqLine := rfl
@[simp] theorem State.setNZ_decimalEnabled (v : Byte) : (s.setNZ v).decimalEnabled = s.decimalEnabled := rfl
@[simp] theorem State.setNZ_mem (v : Byte) : (s.setNZ v).mem = s.mem := rfl

/-! ### fetched -/

@[simp] theorem State.fetched_a (m : Mode) : (s.fetched m).a = s.a := rfl
@[simp] theorem State.fetched_x (m : Mode) : (s.fetched m).x = s.x := rfl
@[simp] theorem State.fetched_y (m : Mode) : (s.fetched m).y = s.y := rfl
@[simp] theorem State.fetched_sp (m : Mode) : (s.fetched m).sp = s.sp := rfl
@[simp] theorem State.fetched_pc (m : Mode) : (s.fetched m).pc = s.pc + BitVec.ofNat 16 (modeLength m) := rfl
@[simp] theorem State.fetched_flags (m : Mode) : (s.fetched m).flags = s.flags := rfl
@[simp] theorem State.fetched_debt (m : Mode) : (s.fetched m).debt = s.debt := rfl
@[simp] theorem State.fetched_resetPending (m : Mode) : (s.fetched m).resetPending = s.resetPending := rfl
@[simp] theorem State.fetched_nmiPending (m : Mode) : (s.fetched m).nmiPending = s.nmiPending := rfl
@[simp] theorem State.fetched_nmiLine (m : Mode) : (s.fetched m).nmiLine = s.nmiLine := rfl
@[simp] theorem State.fetched_irqLine (m : Mode) : (s.fetched m).irqLine = s.irqLine := rfl
@[simp] theorem State.fetched_decimalEnabled (m : Mode) : (s.fetched m).decimalEnabled = s.decimalEnabled := rfl
@[simp] theorem State.fetched_mem (m : Mode) : (s.fetched m).mem = s.mem := rfl

/-! ### rearm -/

@[simp] theorem State.rearm_a (k : Nat) : (s.rearm k).a = s.a := rfl
@[simp] theorem State.rearm_x (k : Nat) : (s.rearm k).x = s.x := rfl
@[simp] theorem State.rearm_y (k : Nat) : (s.rearm k).y = s.y := rfl
@[simp] theorem State.rearm_sp (k : Nat) : (s.rearm k).sp = s.sp := rfl
@[simp] theorem State.rearm_pc (k : Nat) : (s.rearm k).pc = s.pc := rfl
@[simp] theorem State.rearm_flags (k : Nat) : (s.rearm k).flags = s.flags := rfl
@[simp] theorem State.rearm_debt (k : Nat) : (s.rearm k).debt = k - 1 := rfl
@[simp] theorem State.rearm_resetPending (k : Nat) : (s.rearm k).resetPending = s.resetPending := rfl
@[simp] theorem State.rearm_nmiPending (k : Nat) : (s.rearm k).nmiPending = s.nmiPending := rfl
@[simp] theorem State.rearm_nmiLine (k : Nat) : (s.rearm k).nmiLine = s.nmiLine := rfl
@[simp] theorem State.rearm_irqLine (k : Nat) : (s.rearm k).irqLine = s.irqLine := rfl
@[simp] theorem State.rearm_decimalEnabled (k : Nat) : (s.rearm k).decimalEnabled = s.decimalEnabled := rfl
@[simp] theorem State.rearm_mem (k : Nat) : (s.rearm k).mem = s.mem := rfl

/-! ### tick -/

@[simp] theorem State.tick_a : s.tick.a = s.a := rfl
@[simp] theorem State.tick_x : s.tick.x = s.x := rfl
@[simp] theorem State.tick_y : s.tick.y = s.y := rfl
@[simp] theorem State.tick_sp : s.tick.sp = s.sp := rfl
@[simp] theorem State.tick_pc : s.tick.pc = s.pc := rfl
@[simp] theorem State.tick_flags : s.tick.flags = s.flags := rfl
@[simp] theorem State.tick_debt : s.tick.debt = s.debt - 1 := rfl
@[simp] theorem State.tick_resetPending : s.tick.resetPending = s.resetPending := rfl
@[simp] theorem State.tick_nmiPending : s.tick.nmiPending = s.nmiPending := rfl
@[simp] theorem State.tick_nmiLine : s.tick.nmiLine = s.nmiLine := rfl
@[simp] theorem State.tick_irqLine : s.tick.irqLine = s.irqLine := rfl
@[simp] theorem State.tick_decimalEnabled : s.tick.decimalEnabled = s.decimalEnabled := rfl
@[simp] theorem State.tick_mem : s.tick.mem = s.mem := rfl

/-! ### push -/

@[simp] theorem State.push_a (v : Byte) : (s.push v).a = s.a := rfl
@[simp] theorem State.push_x (v : Byte) : (s.push v).x = s.x := rfl
@[simp] theorem State.push_y (v : Byte) : (s.push v).y = s.y := rfl
@[simp] theorem State.push_sp (v : Byte) : (s.push v).sp = s.sp - 1 := rfl
@[simp] theorem State.push_pc (v : Byte) : (s.push v).pc = s.pc := rfl
@[simp] theorem State.push_flags (v : Byte) : (s.push v).flags = s.flags := rfl
@[simp] theorem State.push_debt (v : Byte) : (s.push v).debt = s.debt := rfl
@[simp] theorem State.push_resetPending (v : Byte) : (s.push v).resetPending = s.resetPending := rfl
@[simp] theorem State.push_nmiPending (v : Byte) : (s.push v).nmiPending = s.nmiPending := rfl
@[simp] theorem State.push_nmiLine (v : Byte) : (s.push v).nmiLine = s.nmiLine := rfl
@[simp] theorem State.push_irqLine (v : Byte) : (s.push v).irqLine = s.irqLine := rfl
@[simp] theorem State.push_decimalEnabled (v : Byte) : (s.push v).decimalEnabled = s.decimalEnabled := rfl
@[simp] theorem State.push_mem (v : Byte) : (s.push v).mem = memWrite s.mem (stackAddress s.sp).toNat v := rfl

/-! ### pulled -/

@[simp] theorem State.pulled_a : s.pulled.a = s.a := rfl
@[simp] theorem State.pulled_x : s.pulled.x = s.x := rfl
@[simp] theorem State.pulled_y : s.pulled.y = s.y := rfl
@[simp] theorem State.pulled_sp : s.pulled.sp = s.sp + 1 := rfl
@[simp] theorem State.pulled_pc : s.pulled.pc = s.pc := rfl
@[simp] theorem State.pulled_flags : s.pulled.flags = s.flags := rfl
@[simp] theorem State.pulled_debt : s.pulled.debt = s.debt := rfl
@[simp] theorem State.pulled_resetPending : s.pulled.resetPending = s.resetPending := rfl
@[simp] theorem State.pulled_nmiPending : s.pulled.nmiPending = s.nmiPending := rfl
@[simp] theorem State.pulled_nmiLine : s.pulled.nmiLine = s.nmiLine := rfl
@[simp] theorem State.pulled_irqLine : s.pulled.irqLine = s.irqLine := rfl
@[simp] theorem State.pulled_decimalEnabled : s.pulled.decimalEnabled = s.decimalEnabled := rfl
@[simp] theorem State.pulled_mem : s.pulled.mem = s.mem := rfl

/-! ### push16 -/

@[simp] theorem State.push16_a (w : Word) : (s.push16 w).a = s.a := by simp [State.push16]
@[simp] theorem State.push16_x (w : Word) : (s.push16 w).x = s.x := by simp [State.push16]
@[simp] theorem State.push16_y (w : Word) : (s.push16 w).y = s.y := by simp [State.push16]
@[simp] theorem State.push16_sp (w : Word) : (s.push16 w).sp = s.sp - 1 - 1 := by simp [State.push16]
@[simp] theorem State.push16_pc (w : Word) : (s.push16 w).pc = s.pc := by simp [State.push16]
@[simp] theorem State.push16_flags (w : Word) : (s.push16 w).flags = s.flags := by simp [State.push16]
@[simp] theorem State.push16_debt (w : Word) : (s.push16 w).debt = s.debt := by simp [State.push16]
@[simp] theorem State.push16_resetPending (w : Word) : (s.push16 w).resetPending = s.resetPending := by simp [State.push16]
@[simp] theorem State.push16_nmiPending (w : Word) : (s.push16 w).nmiPending = s.nmiPending := by simp [State.push16]
@[simp] theorem State.push16_nmiLine (w : Word) : (s.push16 w).nmiLine = s.nmiLine := by simp [State.push16]
@[simp] theorem State.push16_irqLine (w : Word) : (s.push16 w).irqLine = s.irqLine := by simp [State.push16]
@[simp] theorem State.push16_decimalEnabled (w : Word) : (s.push16 w).decimalEnabled = s.decimalEnabled := by simp [State.push16]

/-! ### enter -/

@[simp] theorem State.enter_a (r : Word) (b : Bool) (w : Word) : (s.enter r b w).a = s.a := by simp [State.enter, State.push16]
@[simp] theorem State.enter_x (r : Word) (b : Bool) (w : Word) : (s.enter r b w).x = s.x := by simp [State.enter, State.push16]
@[simp] theorem State.enter_y (r : Word) (b : Bool) (w : Word) : (s.enter r b w).y = s.y := by simp [State.enter, State.push16]
@[simp] theorem State.enter_sp (r : Word) (b : Bool) (w : Word) : (s.enter r b w).sp = s.sp - 1 - 1 - 1 := by simp [State.enter, State.push16]
@[simp] theorem State.enter_flags (r : Word) (b : Bool) (w : Word) : (s.enter r b w).flags = { s.flags with b := b, i := true } := by simp [State.enter, State.push16]
@[simp] theorem State.enter_debt (r : Word) (b : Bool) (w : Word) : (s.enter r b w).debt = s.debt := by simp [State.enter, State.push16]
@[simp] theorem State.enter_resetPending (r : Word) (b : Bool) (w : Word) : (s.enter r b w).resetPending = s.resetPending := by simp [State.enter, State.push16]
@[simp] theorem State.enter_nmiPending (r : Word) (b : Bool) (w : Word) : (s.enter r b w).nmiPending = s.nmiPending := by simp [State.enter, State.push16]
@[simp] theorem State.enter_nmiLine (r : Word) (b : Bool) (w : Word) : (s.enter r b w).nmiLine = s.nmiLine := by simp [State.enter, State.push16]
@[simp] theorem State.enter_irqLine (r : Word) (b : Bool) (w : Word) : (s.enter r b w).irqLine = s.irqLine := by simp [State.enter, State.push16]
@[simp] theorem State.enter_decimalEnabled (r : Word) (b : Bool) (w : Word) : (s.enter r b w).decimalEnabled = s.decimalEnabled := by simp [State.enter, State.push16]

/-! ### leave -/

@[simp] theorem State.leave_a : s.leave.a = s.a := by simp [State.leave]
@[simp] theorem State.leave_x : s.leave.x = s.x := by simp [State.leave]
@[simp] theorem State.leave_y : s.leave.y = s.y := by simp [State.leave]
@[simp] theorem State.leave_sp : s.leave.sp = s.sp + 1 + 1 + 1 := by simp [State.leave]
@[simp] theorem State.leave_pc : s.leave.pc = s.pulled.pullWord := by simp [State.leave]; rfl
@[simp] theorem State.leave_flags : s.leave.flags = Flags.unpack s.pullByte := by simp [State.leave]
@[simp] theorem State.leave_debt : s.leave.debt = s.debt := by simp [State.leave]
@[simp] theorem State.leave_resetPending : s.leave.resetPending = s.resetPending := by simp [State.leave]
@[simp] theorem State.leave_nmiPending : s.leave.nmiPending = s.nmiPending := by simp [State.leave]
@[simp] theorem State.leave_nmiLine : s.leave.nmiLine = s.nmiLine := by simp [State.leave]
@[simp] theorem State.leave_irqLine : s.leave.irqLine = s.irqLine := by simp [State.leave]
@[simp] theorem State.leave_decimalEnabled : s.leave.decimalEnabled = s.decimalEnabled := by simp [State.leave]
@[simp] theorem State.leave_mem : s.leave.mem = s.mem := by simp [State.leave]

end Sys2Proof.Machine
end

