-- ==== Sys2Proof/Laws/Memory.lean ====
section
/-! SUPPORT. The store: a read after a write, and the canonical form kept by every operation. -/

namespace Sys2Proof.Machine

theorem memRead_memErase (m : Memory) (a b : Nat) :
    memRead (memErase m a) b = if b = a then Config.unwrittenByte else memRead m b := by
  induction m with
  | nil => simp [memErase, memRead]
  | cons cell rest ih =>
    by_cases hc : cell.1 = a
    · simp only [memErase, memRead, hc, if_true, ih]
      by_cases hb : b = a
      · simp [hb]
      · simp [hb, Ne.symm hb]
    · simp only [memErase, memRead, hc, if_false, ih]
      by_cases hb : cell.1 = b
      · simp [hb, hb ▸ hc]
      · simp [hb]

theorem memRead_memInsert (m : Memory) (a b : Nat) (v : Byte) (h : memRead m a = Config.unwrittenByte)
    (hm : ∀ c ∈ m, c.1 ≠ a) : memRead (memInsert m a v) b = if b = a then v else memRead m b := by
  induction m with
  | nil => simp [memInsert, memRead, eq_comm]
  | cons cell rest ih =>
    have hne : cell.1 ≠ a := hm cell (by simp)
    simp only [memRead, hne, if_false] at h
    have ih' := ih h (fun c hc => hm c (by simp [hc]))
    by_cases hlt : a < cell.1
    · simp only [memInsert, hlt, if_true, memRead]
      by_cases hb : b = a
      · simp [hb]
      · simp [hb, Ne.symm hb]
    · simp only [memInsert, hlt, if_false, memRead, ih']
      by_cases hb : cell.1 = b
      · simp [hb, hb ▸ hne]
      · simp [hb]

theorem memErase_no_cell (m : Memory) (a : Nat) : ∀ c ∈ memErase m a, c.1 ≠ a := by
  induction m with
  | nil => simp [memErase]
  | cons cell rest ih =>
    by_cases hc : cell.1 = a
    · simpa [memErase, hc] using ih
    · simp only [memErase, hc, if_false, List.mem_cons]
      rintro c (rfl | h)
      · exact hc
      · exact ih c h

/-- What a read gives after a write, for every list of cells. -/
theorem memRead_memWrite (m : Memory) (a b : Nat) (v : Byte) :
    memRead (memWrite m a v) b = if b = a then v else memRead m b := by
  unfold memWrite
  split
  · next hv => rw [memRead_memErase, hv]
  · rw [memRead_memInsert _ _ _ _ (by simp [memRead_memErase]) (memErase_no_cell m a), memRead_memErase]
    by_cases hb : b = a <;> simp [hb]

/-! ### The canonical form -/

theorem memSorted_mono {lo lo' : Nat} {m : Memory} (h : memSorted lo m = true) (hle : lo' ≤ lo) :
    memSorted lo' m = true := by
  cases m with
  | nil => rfl
  | cons cell rest =>
    simp only [memSorted, Bool.and_eq_true, decide_eq_true_eq] at h ⊢
    exact ⟨⟨⟨by omega, h.1.1.2⟩, h.1.2⟩, h.2⟩

theorem memErase_sorted {lo : Nat} {m : Memory} (a : Nat) (h : memSorted lo m = true) :
    memSorted lo (memErase m a) = true := by
  induction m generalizing lo with
  | nil => rfl
  | cons cell rest ih =>
    simp only [memSorted, Bool.and_eq_true, decide_eq_true_eq] at h
    by_cases hc : cell.1 = a
    · simp only [memErase, hc, if_true]
      exact memSorted_mono (ih h.2) (by omega)
    · simp only [memErase, hc, if_false, memSorted, Bool.and_eq_true, decide_eq_true_eq]
      exact ⟨h.1, ih h.2⟩

theorem memInsert_sorted {lo a : Nat} {m : Memory} {v : Byte} (h : memSorted lo m = true) (hlo : lo ≤ a)
    (ha : a < 65536) (hv : v ≠ Config.unwrittenByte) (hm : ∀ c ∈ m, c.1 ≠ a) :
    memSorted lo (memInsert m a v) = true := by
  induction m generalizing lo with
  | nil => simp [memInsert, memSorted, hlo, ha, hv]
  | cons cell rest ih =>
    have hne : cell.1 ≠ a := hm cell (by simp)
    simp only [memSorted, Bool.and_eq_true, decide_eq_true_eq] at h
    by_cases hlt : a < cell.1
    · simp only [memInsert, hlt, if_true, memSorted, Bool.and_eq_true, decide_eq_true_eq]
      exact ⟨⟨⟨hlo, ha⟩, hv⟩, ⟨⟨by omega, h.1.1.2⟩, h.1.2⟩, h.2⟩
    · simp only [memInsert, hlt, if_false, memSorted, Bool.and_eq_true, decide_eq_true_eq]
      exact ⟨h.1, ih h.2 (by omega) (fun c hc => hm c (by simp [hc]))⟩

/-- A write inside the address space keeps the canonical form. -/
theorem memWrite_wf {m : Memory} {a : Nat} (v : Byte) (h : Memory.wf m = true) (ha : a < 65536) :
    Memory.wf (memWrite m a v) = true := by
  unfold memWrite
  split
  · exact memErase_sorted a h
  · next hv => exact memInsert_sorted (memErase_sorted a h) (Nat.zero_le a) ha hv (memErase_no_cell m a)

/-- `State.reset` and `State.powerOn` list nothing, which is canonical. -/
theorem reset_mem_wf : Memory.wf State.reset.mem = true ∧ Memory.wf State.powerOn.mem = true := ⟨rfl, rfl⟩

/-! ### The memory port on states -/

variable (s : State)

/-- `MemRead` after `MemWrite` (20_memory R37). -/
theorem State.read_write (e a : Word) (v : Byte) : (s.write e v).read a = if a = e then v else s.read a := by
  simp only [State.read, State.write_mem, memRead_memWrite, BitVec.toNat_inj]

@[simp] theorem State.read_write_same (e : Word) (v : Byte) : (s.write e v).read e = v := by simp [State.read_write]

theorem State.read_write_ne {e a : Word} (v : Byte) (h : a ≠ e) : (s.write e v).read a = s.read a := by
  simp [State.read_write, h]

theorem State.write_wf (e : Word) (v : Byte) (h : Memory.wf s.mem = true) : Memory.wf (s.write e v).mem = true :=
  memWrite_wf v h e.isLt

@[simp] theorem State.read_setA (v : Byte) (a : Word) : (s.setA v).read a = s.read a := rfl
@[simp] theorem State.read_setX (v : Byte) (a : Word) : (s.setX v).read a = s.read a := rfl
@[simp] theorem State.read_setY (v : Byte) (a : Word) : (s.setY v).read a = s.read a := rfl
@[simp] theorem State.read_setSP (v : Byte) (a : Word) : (s.setSP v).read a = s.read a := rfl
@[simp] theorem State.read_setPC (w a : Word) : (s.setPC w).read a = s.read a := rfl
@[simp] theorem State.read_setFlags (f : Flags) (a : Word) : (s.setFlags f).read a = s.read a := rfl
@[simp] theorem State.read_setNZ (v : Byte) (a : Word) : (s.setNZ v).read a = s.read a := rfl
@[simp] theorem State.read_fetched (m : Mode) (a : Word) : (s.fetched m).read a = s.read a := rfl
@[simp] theorem State.read_rearm (k : Nat) (a : Word) : (s.rearm k).read a = s.read a := rfl
@[simp] theorem State.read_tick (a : Word) : s.tick.read a = s.read a := rfl
@[simp] theorem State.read_pulled (a : Word) : s.pulled.read a = s.read a := rfl
@[simp] theorem State.read_leave (a : Word) : s.leave.read a = s.read a := by simp [State.leave]

/-- `Push` on the store (20_memory R43). -/
theorem State.read_push (v : Byte) (a : Word) :
    (s.push v).read a = if a = stackAddress s.sp then v else s.read a := State.read_write s _ a v

end Sys2Proof.Machine
end

