-- ==== Sys2Proof/Laws/Ops.lean ====
section
/-! SUPPORT. What each shared operation does, once: byte order, the stack, entering and leaving a handler, the shared
parts of the meanings, and the cases of one step. -/

namespace Sys2Proof

/-! ### Byte order -/

theorem wordOf_toNat (lo hi : Byte) : (wordOf lo hi).toNat = lo.toNat + 256 * hi.toNat := by
  have := lo.isLt
  simp only [wordOf, BitVec.toNat_append]
  rw [Nat.shiftLeft_eq, Nat.mul_comm, ← Nat.two_pow_add_eq_or_of_lt (by omega)]
  omega

theorem loByte_toNat (w : Word) : (loByte w).toNat = w.toNat % 256 := by
  simp [loByte, BitVec.extractLsb'_toNat]

theorem hiByte_toNat (w : Word) : (hiByte w).toNat = w.toNat / 256 := by
  have := w.isLt
  simp only [hiByte, BitVec.extractLsb'_toNat, Nat.shiftRight_eq_div_pow]
  omega

@[simp] theorem loByte_wordOf (lo hi : Byte) : loByte (wordOf lo hi) = lo := by
  have := lo.isLt
  apply BitVec.eq_of_toNat_eq
  rw [loByte_toNat, wordOf_toNat]
  omega

@[simp] theorem hiByte_wordOf (lo hi : Byte) : hiByte (wordOf lo hi) = hi := by
  have := lo.isLt
  apply BitVec.eq_of_toNat_eq
  rw [hiByte_toNat, wordOf_toNat]
  omega

@[simp] theorem wordOf_lo_hi (w : Word) : wordOf (loByte w) (hiByte w) = w := by
  apply BitVec.eq_of_toNat_eq
  rw [wordOf_toNat, loByte_toNat, hiByte_toNat]
  omega

end Sys2Proof

namespace Sys2Proof.Machine

variable (s : State)

/-! ### The stack (20_memory R43 to R45) -/

theorem stackAddress_toNat (sp : Byte) : (stackAddress sp).toNat = 256 + sp.toNat := by
  simp only [stackAddress, zext]; bv_omega

theorem stackAddress_injective {p q : Byte} (h : stackAddress p = stackAddress q) : p = q := by
  have := congrArg BitVec.toNat h
  simp only [stackAddress_toNat] at this
  exact BitVec.eq_of_toNat_eq (by omega)

@[simp] theorem stackAddress_eq_iff (p q : Byte) : stackAddress p = stackAddress q ↔ p = q :=
  ⟨stackAddress_injective, fun h => h ▸ rfl⟩

theorem State.push_wf (v : Byte) (h : Memory.wf s.mem = true) : Memory.wf (s.push v).mem = true :=
  s.write_wf _ v h

theorem State.push16_wf (w : Word) (h : Memory.wf s.mem = true) : Memory.wf (s.push16 w).mem = true :=
  State.push_wf _ _ (s.push_wf _ h)

/-- `Push16` on the store: the high byte at SP, the low byte below it. -/
theorem State.read_push16 (w a : Word) :
    (s.push16 w).read a =
      if a = stackAddress (s.sp - 1) then loByte w
      else if a = stackAddress s.sp then hiByte w else s.read a := by
  simp only [State.push16, State.read_push, State.push_sp]

/-- What entering a handler writes to the store: the return address and P below it (46 R151; 60 R161). -/
theorem State.read_enter (ret : Word) (brk : Bool) (vec a : Word) :
    (s.enter ret brk vec).read a =
      if a = stackAddress (s.sp - 1 - 1) then { s.flags with b := brk }.pack
      else if a = stackAddress (s.sp - 1) then loByte ret
      else if a = stackAddress s.sp then hiByte ret else s.read a := by
  simp [State.enter, State.read_push, State.read_push16, State.status]

theorem State.enter_wf (ret : Word) (brk : Bool) (vec : Word) (h : Memory.wf s.mem = true) :
    Memory.wf (s.enter ret brk vec).mem = true :=
  State.push_wf _ _ (s.push16_wf ret h)

/-- PC after entering a handler: the word at the vector, which the pushes do not reach (60 R161). -/
theorem State.enter_pc (ret : Word) (brk : Bool) (vec : Word) (h : 0x200 ≤ vec.toNat) (h' : vec.toNat < 0xFFFF) :
    (s.enter ret brk vec).pc = s.read16 vec := by
  have far : ∀ a : Word, 0x200 ≤ a.toNat → ∀ p, a ≠ stackAddress p := by
    intro a ha p hp
    have := stackAddress_toNat p
    rw [← hp] at this
    omega
  have hv : 0x200 ≤ (vec + 1).toNat := by bv_omega
  have e : (s.enter ret brk vec).pc = (s.enter ret brk vec).read16 vec := by simp [State.enter, State.read16]
  rw [e]
  simp only [State.read16, State.read_enter, far vec h, far (vec + 1) hv, if_false]

/-! ### The shared parts of the meanings, field by field -/

theorem transfer_eq (set : State → Byte → State) (v : Byte) :
    transfer set v s = ((set (s.fetched .implied) v).setNZ v).rearm 2 := rfl

theorem arithmetic_eq (src : ReadOperand) (r : AluResult) :
    arithmetic src r s =
      { s with
        a := r.res, flags := s.flags.arith r, pc := s.pc + BitVec.ofNat 16 (modeLength src.mode)
        debt := readCost src s - 1 } := rfl

theorem logic_eq (src : ReadOperand) (v : Byte) :
    logic src v s =
      { s with
        a := v, flags := s.flags.setNZ v, pc := s.pc + BitVec.ofNat 16 (modeLength src.mode)
        debt := readCost src s - 1 } := rfl

theorem comparison_eq (reg : Byte) (src : ReadOperand) :
    comparison reg src s =
      { s with
        flags := s.flags.compare reg (operandValue src s), pc := s.pc + BitVec.ofNat 16 (modeLength src.mode)
        debt := readCost src s - 1 } := rfl

theorem writeBack_eq (dst : RmwOperand) (v : Byte) :
    writeBack dst v s =
      { s with
        mem := memWrite s.mem (resolve dst.toMem s).ea.toNat v, flags := s.flags.setNZ v
        pc := s.pc + BitVec.ofNat 16 (modeLength dst.toMem.mode), debt := rmwCost dst - 1 } := rfl

theorem flagsOnly_eq (f : Flags) : flagsOnly f s = { s with flags := f, pc := s.pc + 1, debt := 1 } := rfl

theorem branch_eq (taken : Bool) (d : Byte) :
    branch taken d s =
      { s with
        pc := if taken then s.pc + 2 + sext d else s.pc + 2
        debt := branchCost taken (branchTarget (s.pc + 2) d).crossed - 1 } := by
  cases taken <;> rfl

theorem shift_accumulator_eq (r : Byte × Bool) :
    shift .accumulator r s = { s with a := r.1, flags := s.flags.shifted r, pc := s.pc + 1, debt := 1 } := rfl

theorem shift_memory_eq (m : RmwOperand) (r : Byte × Bool) :
    shift (.memory m) r s =
      { s with
        mem := memWrite s.mem (resolve m.toMem s).ea.toNat r.1, flags := s.flags.shifted r
        pc := s.pc + BitVec.ofNat 16 (modeLength m.toMem.mode), debt := rmwCost m - 1 } := rfl

/-- The cost of reading an operand lies in 2 to 6 (70 R180). -/
theorem readCost_bounds (src : ReadOperand) : 2 ≤ readCost src s ∧ readCost src s ≤ 6 := by
  cases src with
  | immediate v => simp [readCost]
  | memory m =>
    have page : pageCycle m s ≤ 1 := by unfold pageCycle; split <;> omega
    have fixed : m.mode = .indirectX → pageCycle m s = 0 := by cases m <;> simp [MemOperand.mode, pageCycle, resolve, atAddress]
    cases m <;> simp_all [readCost, readMemCost, readMemBase, MemOperand.mode] <;> omega

/-! ### One step -/

/-- Everything a step can be: Busy, one of the three sequences, or the instruction at PC (30_encoding R77). -/
theorem step_cases :
    (0 < s.debt ∧ step s = .next s.tick) ∨
    (s.debt = 0 ∧ sample s = .reset ∧ step s = .next s.runReset) ∨
    (s.debt = 0 ∧ sample s = .nmi ∧ step s = .next s.runNmi) ∨
    (s.debt = 0 ∧ sample s = .irq ∧ step s = .next s.runIrq) ∨
    (s.debt = 0 ∧ sample s = .noEvent ∧ step s = exec (fetchInstr s) s) := by
  by_cases hd : 0 < s.debt
  · simp [step, hd]
  · have h0 : s.debt = 0 := by omega
    cases hs : sample s <;> simp [step, h0, hs]

end Sys2Proof.Machine
end

