-- ==== Sys2Proof/Laws/Claims.lean ====
section
/-! SUPPORT. Small facts that proofs about the meanings cite: the flags of `SetNZ`, PC and the debt after an
instruction, the bounds of the costs, indexed addresses, the pointer of JMP, the two faces of the decode table, and
running the machine step by step. -/

namespace Sys2Proof

/-- The table and the encodings of the instruction rules agree, opcode by opcode. -/
theorem descriptor_encodings (op : Byte) :
    (match descriptor op with
      | .assigned m t _ => decide (m ∈ allowedModes t) && decide ((encodings t).lookup m = some op)
      | .unassigned => unassignedOpcodes.contains op) = true := by
  revert op; decide +kernel

/-- An instruction assembled in a mode of its type has that type and mode, and the operand bytes it was read from. -/
theorem assemble_form {t : InstrType} {m : Mode} {b1 b2 : Byte} {i : Instr} (hm : m ∈ allowedModes t)
    (h : assemble t m b1 b2 = some i) :
    i.form = .assigned t m ∧ operandBytes i = [b1, b2].take (operandCount m) := by
  cases t <;> simp only [allowedModes, aluModes, rmwModes, List.mem_cons, List.not_mem_nil, or_false] at hm <;>
    (first | (subst hm) | (rcases hm with rfl | rfl | rfl | rfl | rfl | rfl | rfl | rfl)) <;>
    cases h <;> refine ⟨rfl, ?_⟩ <;>
    simp [operandBytes, operandCount, ReadOperand.bytes, MemOperand.bytes, RmwOperand.toMem, ShiftOperand.bytes,
      JumpOperand.bytes]

/-- A type assembles in every mode the spec lists for it. -/
theorem assemble_exists {t : InstrType} {m : Mode} (b1 b2 : Byte) (hm : m ∈ allowedModes t) :
    ∃ i, assemble t m b1 b2 = some i := by
  cases t <;> cases m <;> first
    | exact ⟨_, rfl⟩
    | (exact absurd hm (by decide))

end Sys2Proof

namespace Sys2Proof.Machine

variable (s : State)

/-! ### Flags, PC and debt -/

theorem msb_iff (v : Byte) : v.getLsbD 7 = true ↔ 0x80 ≤ v.toNat := by
  have := v.isLt
  rw [BitVec.getLsbD, Nat.testBit_eq_decide_div_mod_eq]
  simp only [decide_eq_true_eq]
  omega

/-- `SetNZ` says what it should (43 R100). -/
theorem setsNZ_setNZ (f : Flags) (v : Byte) : SetsNZ f (f.setNZ v) v := by
  simp only [SetsNZ, Flags.setNZ, msb_iff, beq_iff_eq, and_self]

theorem advances_of {s t : State} {k c : Nat} (h : t.pc = s.pc + BitVec.ofNat 16 k) (hd : t.debt = c - 1)
    (hc : 1 ≤ c) : Advances s t k c := by
  refine ⟨?_, by omega⟩
  rw [h]
  simp

theorem storeCost_bounds (m : MemOperand) : 3 ≤ storeCost m ∧ storeCost m ≤ 6 := by cases m <;> simp [storeCost]

theorem rmwCost_bounds (m : RmwOperand) : 5 ≤ rmwCost m ∧ rmwCost m ≤ 7 := by cases m <;> simp [rmwCost]

theorem shiftCost_bounds (dst : ShiftOperand) : 2 ≤ shiftCost dst ∧ shiftCost dst ≤ 7 := by
  cases dst with
  | accumulator => simp [shiftCost]
  | memory m =>
    have := rmwCost_bounds m
    simp only [shiftCost]
    omega

theorem jumpCost_bounds (tgt : JumpOperand) : 3 ≤ jumpCost tgt ∧ jumpCost tgt ≤ 5 := by cases tgt <;> simp [jumpCost]

theorem branchCost_bounds (taken crossed : Bool) : 2 ≤ branchCost taken crossed ∧ branchCost taken crossed ≤ 4 := by
  cases taken <;> cases crossed <;> simp [branchCost]

/-! ### Addresses -/

theorem zext_eq (b : Byte) : zext b = BitVec.ofNat 16 b.toNat := by
  apply BitVec.eq_of_toNat_eq
  simp [zext]

/-- The sum and the crossing of an indexed address, in whole numbers (30 R63, R64, R67). -/
theorem indexed_spec (w : Word) (x : Byte) :
    (indexed w x).ea.toNat = (w.toNat + x.toNat) % 65536 ∧
      ((indexed w x).crossed = true ↔ (w.toNat + x.toNat) % 65536 / 256 ≠ w.toNat / 256) := by
  have h : (w + zext x).toNat = (w.toNat + x.toNat) % 65536 := by simp [zext]
  refine ⟨h, ?_⟩
  simp only [indexed, bne_iff_ne, ne_eq, ← BitVec.toNat_inj, hiByte_toNat, h]
  tauto

/-- The address of the high byte of an indirect JMP: the next one in the pointer's own page (30 R65). -/
theorem pointerHigh_eq (w : Word) :
    ((w &&& 0xFF00#16) ||| ((w + 1#16) &&& 0x00FF#16)) =
      BitVec.ofNat 16 (w.toNat / 256 * 256 + (w.toNat + 1) % 256) := by
  apply BitVec.eq_of_toNat_eq
  have := w.isLt
  have high : w.toNat &&& 65280 = w.toNat / 256 * 256 := by
    have e : w.toNat &&& 65280 = (w.toNat / 2 ^ 8 &&& 255) <<< 8 := by
      apply Nat.eq_of_testBit_eq
      intro k
      rw [show (65280 : Nat) = 255 <<< 8 by decide]
      simp only [Nat.testBit_and, Nat.testBit_shiftLeft, Nat.testBit_div_two_pow]
      by_cases hk : 8 ≤ k <;> simp [hk]
    rw [e, show (255 : Nat) = 2 ^ 8 - 1 by decide, Nat.and_two_pow_sub_one_eq_mod, Nat.shiftLeft_eq]
    omega
  have low : ∀ n : Nat, n &&& 255 = n % 256 := fun n => Nat.and_two_pow_sub_one_eq_mod n 8
  simp only [BitVec.toNat_or, BitVec.toNat_and, BitVec.toNat_add, BitVec.toNat_ofNat]
  rw [show 65280 % 2 ^ 16 = 65280 by decide, show 255 % 2 ^ 16 = 255 by decide, high, low,
    show w.toNat / 256 * 256 = 2 ^ 8 * (w.toNat / 256) by omega, ← Nat.two_pow_add_eq_or_of_lt (by omega)]
  omega

theorem stackAddress_onStackPage (sp : Byte) : OnStackPage (stackAddress sp) := by
  have := sp.isLt
  rw [OnStackPage, stackAddress_toNat]
  omega

/-! ### The sequences -/

theorem runReset_eq :
    s.runReset =
      { s with
        resetPending := false, nmiPending := false, sp := 0xFF, flags := { s.flags with i := true, d := false }
        pc := s.read16 resetVector, debt := 6 } := rfl

theorem runNmi_eq :
    s.runNmi = (State.enter { s with nmiPending := false } s.pc false nmiVector).rearm 7 := rfl

theorem runIrq_eq : s.runIrq = (s.enter s.pc false irqVector).rearm 7 := rfl

/-! ### Running -/

theorem core_run_zero : Sys2Proof.core.run 0 s = .next s := rfl

theorem run_succ_of_step {M : Host.Core} (k : Nat) {u v : M.State} (h : M.step u = .next v) :
    M.run (k + 1) u = M.run k v := by
  simp [Host.Core.run, h]

theorem core_run_succ (k : Nat) {s t : State} (h : step s = .next t) :
    Sys2Proof.core.run (k + 1) s = Sys2Proof.core.run k t :=
  run_succ_of_step (M := Sys2Proof.core) k h

end Sys2Proof.Machine
end

