-- ==== Sys2Proof/Laws/PerInstr.lean ====
section
/-! SUPPORT. The family `Encoding`, one lemma for each constructor: an instruction has an encoding exactly when it is
well-formed, and its bytes are as many as its mode fixes (30_encoding R51, R52). -/

namespace Sys2Proof.Laws.Encoding

/-- The encoding exists exactly for a well-formed instruction and has the length of its form. -/
def Statement (i : Instr) : Prop :=
  (encode i).isSome = i.wellFormed ∧ ∀ bs, encode i = some bs → bs.length = instrLength i

theorem of_parts (i : Instr) (h : (opcodeOf i).isSome = i.wellFormed)
    (hl : (operandBytes i).length + 1 = instrLength i) : Statement i := by
  refine ⟨by simpa [encode] using h, fun bs hb => ?_⟩
  simp only [encode, Option.map_eq_some_iff] at hb
  obtain ⟨op, -, rfl⟩ := hb
  simpa using hl

/-- The modes of a rule's "Encoding" line are those of its "Operands" line. -/
theorem lookup_isSome (t : InstrType) (m : Mode) :
    ((encodings t).lookup m).isSome = (allowedModes t).contains m := by
  cases t <;> cases m <;> rfl

theorem of_form {i : Instr} {t : InstrType} {m : Mode} (hf : i.form = .assigned t m)
    (hl : (operandBytes i).length = operandCount m) : Statement i :=
  of_parts i (by simp only [opcodeOf, Instr.wellFormed, hf, lookup_isSome])
    (by simp only [instrLength, hf, modeLength, hl, Nat.add_comm])

theorem mem_length (m : MemOperand) : m.bytes.length = operandCount m.mode := by cases m <;> rfl

theorem read_length (src : ReadOperand) : src.bytes.length = operandCount src.mode := by
  cases src with
  | immediate v => rfl
  | memory m => exact mem_length m

theorem shift_length (dst : ShiftOperand) : dst.bytes.length = operandCount dst.mode := by
  cases dst with
  | accumulator => rfl
  | memory m => exact mem_length m.toMem

theorem jump_length (tgt : JumpOperand) : tgt.bytes.length = operandCount tgt.mode := by cases tgt <;> rfl

theorem lda (src : ReadOperand) : Statement (.lda src) := of_form rfl (read_length src)
theorem ldx (src : ReadOperand) : Statement (.ldx src) := of_form rfl (read_length src)
theorem ldy (src : ReadOperand) : Statement (.ldy src) := of_form rfl (read_length src)
theorem sta (dst : MemOperand) : Statement (.sta dst) := of_form rfl (mem_length dst)
theorem stx (dst : MemOperand) : Statement (.stx dst) := of_form rfl (mem_length dst)
theorem sty (dst : MemOperand) : Statement (.sty dst) := of_form rfl (mem_length dst)
theorem tax : Statement .tax := of_form rfl rfl
theorem tay : Statement .tay := of_form rfl rfl
theorem txa : Statement .txa := of_form rfl rfl
theorem tya : Statement .tya := of_form rfl rfl
theorem tsx : Statement .tsx := of_form rfl rfl
theorem txs : Statement .txs := of_form rfl rfl
theorem pha : Statement .pha := of_form rfl rfl
theorem php : Statement .php := of_form rfl rfl
theorem pla : Statement .pla := of_form rfl rfl
theorem plp : Statement .plp := of_form rfl rfl
theorem adc (src : ReadOperand) : Statement (.adc src) := of_form rfl (read_length src)
theorem sbc (src : ReadOperand) : Statement (.sbc src) := of_form rfl (read_length src)
theorem and (src : ReadOperand) : Statement (.and src) := of_form rfl (read_length src)
theorem ora (src : ReadOperand) : Statement (.ora src) := of_form rfl (read_length src)
theorem eor (src : ReadOperand) : Statement (.eor src) := of_form rfl (read_length src)
theorem bit (src : MemOperand) : Statement (.bit src) := of_form rfl (mem_length src)
theorem cmp (src : ReadOperand) : Statement (.cmp src) := of_form rfl (read_length src)
theorem cpx (src : ReadOperand) : Statement (.cpx src) := of_form rfl (read_length src)
theorem cpy (src : ReadOperand) : Statement (.cpy src) := of_form rfl (read_length src)
theorem inc (dst : RmwOperand) : Statement (.inc dst) := of_form rfl (mem_length dst.toMem)
theorem dec (dst : RmwOperand) : Statement (.dec dst) := of_form rfl (mem_length dst.toMem)
theorem inx : Statement .inx := of_form rfl rfl
theorem iny : Statement .iny := of_form rfl rfl
theorem dex : Statement .dex := of_form rfl rfl
theorem dey : Statement .dey := of_form rfl rfl
theorem asl (dst : ShiftOperand) : Statement (.asl dst) := of_form rfl (shift_length dst)
theorem lsr (dst : ShiftOperand) : Statement (.lsr dst) := of_form rfl (shift_length dst)
theorem rol (dst : ShiftOperand) : Statement (.rol dst) := of_form rfl (shift_length dst)
theorem ror (dst : ShiftOperand) : Statement (.ror dst) := of_form rfl (shift_length dst)
theorem jmp (tgt : JumpOperand) : Statement (.jmp tgt) := of_form rfl (jump_length tgt)
theorem jsr (w : Word) : Statement (.jsr w) := of_form rfl rfl
theorem rts : Statement .rts := of_form rfl rfl
theorem bcc (d : Byte) : Statement (.bcc d) := of_form rfl rfl
theorem bcs (d : Byte) : Statement (.bcs d) := of_form rfl rfl
theorem beq (d : Byte) : Statement (.beq d) := of_form rfl rfl
theorem bmi (d : Byte) : Statement (.bmi d) := of_form rfl rfl
theorem bne (d : Byte) : Statement (.bne d) := of_form rfl rfl
theorem bpl (d : Byte) : Statement (.bpl d) := of_form rfl rfl
theorem bvc (d : Byte) : Statement (.bvc d) := of_form rfl rfl
theorem bvs (d : Byte) : Statement (.bvs d) := of_form rfl rfl
theorem clc : Statement .clc := of_form rfl rfl
theorem cld : Statement .cld := of_form rfl rfl
theorem cli : Statement .cli := of_form rfl rfl
theorem clv : Statement .clv := of_form rfl rfl
theorem sec : Statement .sec := of_form rfl rfl
theorem sed : Statement .sed := of_form rfl rfl
theorem sei : Statement .sei := of_form rfl rfl
theorem nop : Statement .nop := of_form rfl rfl
theorem brk : Statement .brk := of_form rfl rfl
theorem rti : Statement .rti := of_form rfl rfl

theorem unassigned (op : Byte) : Statement (.unassigned op) := by
  refine of_parts _ ?_ rfl
  simp only [opcodeOf, Instr.wellFormed, Instr.form]
  cases unassignedOpcodes.contains op <;> rfl

end Sys2Proof.Laws.Encoding
end

