-- ==== Sys2Proof/Tests/Slice0.lean ====
section
/-! SUPPORT. Tests: the well-formedness smoke tests, words written out from the encoding tables, one step for each
instruction from the vectors of 95_test_vectors, the sequences, and for every obligation with hypotheses a state and
operands that meet them. Every expected value comes from the spec. -/

namespace Sys2Proof.Tests

open Sys2Proof.Machine

/-! ### Helpers -/

/-- All flags 0. -/
def noFlags : Flags := { c := false, z := false, i := false, d := false, b := false, v := false, n := false }

/-- The defaults of the vectors (95_test_vectors): a boundary at 0x0200, registers and flags 0, SP = 0xFF,
DECIMAL_ENABLED. -/
def start : State := { State.reset with pc := 0x0200, debt := 0, flags := noFlags, decimalEnabled := true }

/-- Bytes put into memory from an address on. -/
def load (a : Word) (bytes : List Byte) (s : State) : State :=
  match bytes with
  | [] => s
  | b :: rest => load (a + 1) rest (s.write a b)

/-- An instruction's bytes put at PC. -/
def code (bytes : List Byte) (s : State) : State := load s.pc bytes s

/-- Single bytes put into memory. -/
def put (cells : List (Word × Byte)) (s : State) : State := cells.foldl (fun t c => t.write c.1 c.2) s

/-- One step leads to the state the function describes from the one before. -/
def leads (s : State) (f : State → State) : Bool :=
  match step s with
  | .next t => decide (t = f s)
  | .fault _ => false
  | .refused _ => false

/-- One step stops with InvalidOpcode. -/
def stops (s : State) (op : Byte) : Bool :=
  match step s with
  | .next _ => false
  | .fault r => decide (r = .invalidOpcode op)
  | .refused _ => false

/-! ### Well-formedness: an ill-formed term for each check, which the check and the encoder refuse -/

/-- Terms in a mode their rule does not list (41 to 46), and assigned opcodes called unassigned (30 R75). -/
def illFormed : List Instr :=
  [.lda (.memory (.zeroPageY 0x10)), .ldx (.memory (.absoluteX 0x1234)), .ldx (.memory (.indirectX 0x10)),
   .ldy (.memory (.zeroPageY 0x10)), .ldy (.memory (.absoluteY 0x1234)), .sta (.zeroPageY 0x10),
   .stx (.zeroPageX 0x10), .stx (.absoluteY 0x1234), .sty (.zeroPageY 0x10), .sty (.absoluteX 0x1234),
   .adc (.memory (.zeroPageY 0x10)), .sbc (.memory (.zeroPageY 0x10)), .and (.memory (.zeroPageY 0x10)),
   .ora (.memory (.zeroPageY 0x10)), .eor (.memory (.zeroPageY 0x10)), .cmp (.memory (.zeroPageY 0x10))] ++
  [.bit (.zeroPageX 0x10), .bit (.absoluteX 0x1234), .cpx (.memory (.zeroPageX 0x10)),
   .cpx (.memory (.indirectY 0x10)), .cpy (.memory (.absoluteX 0x1234)), .unassigned 0xA9, .unassigned 0x00]

theorem test_illFormed_refused : (illFormed.all fun i => !i.wellFormed) = true := by decide

theorem test_illFormed_not_encoded : (illFormed.all fun i => (encode i).isNone) = true := by decide

theorem test_wellFormed_accepts :
    (Instr.lda (.memory (.indirectY 0x10))).wellFormed = true ∧ (Instr.unassigned 0xFF).wellFormed = true := by decide

/-! ### Decoding: words written out from the spec, one row for each constructor -/

/-- Every row decodes to its instruction, with nothing left, and the instruction encodes to the row. -/
def reads (rows : List (List Byte × Instr)) : Bool :=
  rows.all fun row => decide (decode row.1 = .instr row.2 []) && decide (encode row.2 = some row.1)

/-- 41_load_store_transfer, "Encoding" lines of R83 to R94. -/
theorem test_decode_transfers :
    reads [([0b10101001, 0x80], .lda (.immediate 0x80)), ([0xA2, 0x01], .ldx (.immediate 0x01)),
      ([0xBC, 0x34, 0x12], .ldy (.memory (.absoluteX 0x1234))), ([0x91, 0x20], .sta (.indirectY 0x20)),
      ([0x96, 0x10], .stx (.zeroPageY 0x10)), ([0x8C, 0x00, 0x03], .sty (.absolute 0x0300)),
      ([0b10101010], .tax), ([0xA8], .tay), ([0x8A], .txa), ([0x98], .tya), ([0xBA], .tsx), ([0x9A], .txs)]
      = true := by decide

/-- 42_stack, R95 to R98. -/
theorem test_decode_stack :
    reads [([0b01001000], .pha), ([0b00001000], .php), ([0x68], .pla), ([0x28], .plp)] = true := by decide

/-- 43_alu_arith_logic, R110 to R124. -/
theorem test_decode_arithmetic :
    reads [([0b01101001, 0x01], .adc (.immediate 0x01)), ([0xF1, 0x20], .sbc (.memory (.indirectY 0x20))),
      ([0x21, 0x20], .and (.memory (.indirectX 0x20))), ([0x19, 0x34, 0x12], .ora (.memory (.absoluteY 0x1234))),
      ([0x55, 0x10], .eor (.memory (.zeroPageX 0x10))), ([0b00100100, 0x10], .bit (.zeroPage 0x10)),
      ([0xDD, 0x34, 0x12], .cmp (.memory (.absoluteX 0x1234))), ([0xE4, 0x10], .cpx (.memory (.zeroPage 0x10))),
      ([0xC0, 0x00], .cpy (.immediate 0x00)), ([0xFE, 0xF0, 0x12], .inc (.absoluteX 0x12F0)),
      ([0xD6, 0x10], .dec (.zeroPageX 0x10)), ([0xE8], .inx), ([0xC8], .iny), ([0xCA], .dex), ([0x88], .dey)]
      = true := by decide

/-- 44_shift_rotate, R127 to R130. -/
theorem test_decode_shifts :
    reads [([0b00001010], .asl .accumulator), ([0x5E, 0xF0, 0x12], .lsr (.memory (.absoluteX 0x12F0))),
      ([0x2E, 0x34, 0x12], .rol (.memory (.absolute 0x1234))), ([0x66, 0x10], .ror (.memory (.zeroPage 0x10)))]
      = true := by decide

/-- 45_control_transfer, R131 to R142. -/
theorem test_decode_control :
    reads [([0b01101100, 0xFF, 0x12], .jmp (.indirect 0x12FF)), ([0x4C, 0x00, 0x02], .jmp (.absolute 0x0200)),
      ([0x20, 0x00, 0x10], .jsr 0x1000), ([0x60], .rts), ([0b10010000, 0x10], .bcc 0x10), ([0xB0, 0x10], .bcs 0x10),
      ([0xF0, 0x01], .beq 0x01), ([0x30, 0xFC], .bmi 0xFC), ([0xD0, 0x00], .bne 0x00), ([0x10, 0x80], .bpl 0x80),
      ([0x50, 0x7F], .bvc 0x7F), ([0x70, 0x7F], .bvs 0x7F)] = true := by decide

/-- 46_flags_system, R143 to R152, and two unassigned opcodes of 30_encoding R75. -/
theorem test_decode_system :
    reads [([0b00011000], .clc), ([0xD8], .cld), ([0x58], .cli), ([0xB8], .clv), ([0x38], .sec), ([0xF8], .sed),
      ([0x78], .sei), ([0xEA], .nop), ([0b00000000], .brk), ([0x40], .rti), ([0x02], .unassigned 0x02),
      ([0xFF], .unassigned 0xFF)] = true := by decide

/-- A list that ends inside an instruction is rejected by name. -/
theorem test_decode_truncated :
    decode [] = .noOpcode ∧ decode [0xAD, 0x34] = .truncated 0xAD ∧ decode [0x60] = .instr .rts [] := by decide

/-- The table's numbering: the opcode is bits 7:0, the operand bytes follow, and what the row does not give is 0. -/
theorem test_decodeTableWord :
    decodeTableWord 24 0x1234AD = some (.lda (.memory (.absolute 0x1234))) ∧
      decodeTableWord 8 0x4C = some (.jmp (.absolute 0x0000)) ∧ decodeTableWord 8 0x02 = some (.unassigned 0x02) := by
  decide

/-- A placed word is the first instruction after reset: SEC, and LDA #$80. -/
theorem test_withFetchWord :
    leads (State.withFetchWord { State.reset with decimalEnabled := true } 8 0x38) (fun s => { s with pc := 0x0001, debt := 1, flags.c := true }) = true ∧
      leads (State.withFetchWord { State.reset with decimalEnabled := true } 16 0x80A9)
        (fun s => { s with a := 0x80, pc := 0x0002, debt := 1, flags.n := true }) = true := by decide

/-! ### 41_load_store_transfer: vectors of 95_test_vectors -/

/-- V13, `LDA ($FE,X)`. -/
theorem test_lda_indexed_pointer_wraps_in_page_zero :
    leads (put [(0x00FF, 0x00), (0x0000, 0x31), (0x0100, 0x32), (0x3100, 0x07)]
        (code [0xA1, 0xFE] { start with x := 0x01 }))
      (fun s => { s with a := 0x07, pc := 0x0202, debt := 5 }) = true := by decide

/-- V15, `LDA ($20),Y`. -/
theorem test_lda_indirect_indexed_crossing :
    leads (put [(0x0020, 0xF8), (0x0021, 0x30), (0x3108, 0x09)] (code [0xB1, 0x20] { start with y := 0x10 }))
      (fun s => { s with a := 0x09, pc := 0x0202, debt := 5 }) = true := by decide

/-- V3, `LDX $F0,Y`. -/
theorem test_ldx_zero_page_wraps :
    leads (put [(0x0010, 0x5A)] (code [0xB6, 0xF0] { start with y := 0x20 }))
      (fun s => { s with x := 0x5A, pc := 0x0202, debt := 3 }) = true := by decide

/-- V20, `LDX $1200,Y`. -/
theorem test_ldx_crossing :
    leads (put [(0x1200, 0x7F)] (code [0xBE, 0xFF, 0x11] { start with y := 0x01 }))
      (fun s => { s with x := 0x7F, pc := 0x0203, debt := 4 }) = true := by decide

/-- V21, `LDY $10,X`. -/
theorem test_ldy_negative :
    leads (put [(0x0015, 0xFF)] (code [0xB4, 0x10] { start with x := 0x05 }))
      (fun s =>
        { s with y := 0xFF, pc := 0x0202, debt := 3, flags := { s.flags with n := true } }) = true := by decide

/-- V9, `STA $12F0,X`. -/
theorem test_sta_crossing_costs_nothing :
    leads (code [0x9D, 0xF0, 0x12] { start with a := 0x77, x := 0x20 })
      (fun s => put [(0x1310, 0x77)] { s with pc := 0x0203, debt := 4 }) = true := by decide

/-- V17, `STA ($20),Y`. -/
theorem test_sta_indirect_indexed :
    leads (put [(0x0020, 0xF8), (0x0021, 0x30)] (code [0x91, 0x20] { start with a := 0x55, y := 0x10 }))
      (fun s => put [(0x3108, 0x55)] { s with pc := 0x0202, debt := 5 }) = true := by decide

/-- V23, `STX $10,Y`. -/
theorem test_stx_zero_page_wraps :
    leads (code [0x96, 0x10] { start with x := 0x22, y := 0xFF })
      (fun s => put [(0x000F, 0x22)] { s with pc := 0x0202, debt := 3 }) = true := by decide

/-- V24, `STY $0300`. -/
theorem test_sty_absolute :
    leads (code [0x8C, 0x00, 0x03] { start with y := 0x33 })
      (fun s => put [(0x0300, 0x33)] { s with pc := 0x0203, debt := 3 }) = true := by decide

/-- V25, `TAX`. -/
theorem test_tax_zero :
    leads (code [0xAA] { start with a := 0x00, x := 0x12 })
      (fun s =>
        { s with x := 0x00, pc := 0x0201, debt := 1, flags := { s.flags with z := true } }) = true := by decide

/-- V26, `TAY`. -/
theorem test_tay_negative :
    leads (code [0xA8] { start with a := 0x90 })
      (fun s =>
        { s with y := 0x90, pc := 0x0201, debt := 1, flags := { s.flags with n := true } }) = true := by decide

/-- V27, `TXA`. -/
theorem test_txa_clears_n :
    leads (code [0x8A] { start with x := 0x01, a := 0x80, flags := { noFlags with n := true } })
      (fun s =>
        { s with a := 0x01, pc := 0x0201, debt := 1, flags := { s.flags with n := false } }) = true := by decide

/-- V28, `TYA`. -/
theorem test_tya_zero :
    leads (code [0x98] { start with y := 0x00, a := 0x05 })
      (fun s =>
        { s with a := 0x00, pc := 0x0201, debt := 1, flags := { s.flags with z := true } }) = true := by decide

/-- V29, `TSX`. -/
theorem test_tsx_sets_z :
    leads (code [0xBA] { start with sp := 0x00, x := 0x12 })
      (fun s =>
        { s with x := 0x00, pc := 0x0201, debt := 1, flags := { s.flags with z := true } }) = true := by decide

/-- V30, `TXS`. -/
theorem test_txs_keeps_flags :
    leads (code [0x9A] { start with x := 0x00, sp := 0xFF })
      (fun s => { s with sp := 0x00, pc := 0x0201, debt := 1 }) = true := by decide

/-! ### 42_stack: vectors of 95_test_vectors -/

/-- V31, `PHA`. -/
theorem test_pha_wraps :
    leads (code [0x48] { start with a := 0x37, sp := 0x00 })
      (fun s => put [(0x0100, 0x37)] { s with sp := 0xFF, pc := 0x0201, debt := 2 }) = true := by decide

/-- V32, `PLA`. -/
theorem test_pla_wraps :
    leads (put [(0x0100, 0x80)] (code [0x68] { start with sp := 0xFF }))
      (fun s =>
        { s with a := 0x80, sp := 0x00, pc := 0x0201, debt := 3, flags := { s.flags with n := true } }) = true := by decide

/-- V33, `PHP`. -/
theorem test_php_pushes_bits_5_and_4 :
    leads (code [0x08] { start with flags := { noFlags with d := true, c := true } })
      (fun s => put [(0x01FF, 0x39)] { s with sp := 0xFE, pc := 0x0201, debt := 2 }) = true := by decide

/-- V34, `PLP`. -/
theorem test_plp_clears_i :
    leads (put [(0x01FF, 0x00)] (code [0x28] { start with sp := 0xFE, flags := { noFlags with i := true } }))
      (fun s =>
        { s with sp := 0xFF, pc := 0x0201, debt := 3, flags := { s.flags with i := false } }) = true := by decide

/-- V35, `PLP`. -/
theorem test_plp_all_flags :
    leads (put [(0x01FF, 0xFF)] (code [0x28] { start with sp := 0xFE }))
      (fun s =>
        { s with sp := 0xFF, pc := 0x0201, debt := 3, flags := { s.flags with n := true, v := true, b := true, d := true, i := true, z := true, c := true } }) = true := by decide

/-! ### 43_alu_arith_logic: vectors of 95_test_vectors -/

/-- V39, `ADC #$80`. -/
theorem test_adc_carry_and_overflow :
    leads (code [0x69, 0x80] { start with a := 0x80 })
      (fun s =>
        { s with a := 0x00, pc := 0x0202, debt := 1, flags := { s.flags with v := true, z := true, c := true } }) = true := by decide

/-- V52, `ADC #$46`. -/
theorem test_adc_decimal :
    leads (code [0x69, 0x46] { start with a := 0x58, flags := { noFlags with c := true, d := true } })
      (fun s =>
        { s with a := 0x05, pc := 0x0202, debt := 1, flags := { s.flags with n := true, v := true } }) = true := by decide

/-- V46, `SBC #$FF`. -/
theorem test_sbc_borrow_and_overflow :
    leads (code [0xE9, 0xFF] { start with a := 0x7F, flags := { noFlags with c := true } })
      (fun s =>
        { s with a := 0x80, pc := 0x0202, debt := 1, flags := { s.flags with n := true, v := true, c := false } }) = true := by decide

/-- V59, `SBC #$01`. -/
theorem test_sbc_decimal_borrow :
    leads (code [0xE9, 0x01] { start with a := 0x00, flags := { noFlags with c := true, d := true } })
      (fun s =>
        { s with a := 0x99, pc := 0x0202, debt := 1, flags := { s.flags with n := true, c := false } }) = true := by decide

/-- V63, `AND #$0F`. -/
theorem test_and_zero :
    leads (code [0x29, 0x0F] { start with a := 0xF0 })
      (fun s =>
        { s with a := 0x00, pc := 0x0202, debt := 1, flags := { s.flags with z := true } }) = true := by decide

/-- V64, `ORA #$00`. -/
theorem test_ora_keeps_c_and_v :
    leads (code [0x09, 0x00] { start with a := 0x00, flags := { noFlags with c := true, v := true } })
      (fun s => { s with pc := 0x0202, debt := 1, flags := { s.flags with z := true } }) = true := by decide

/-- V65, `EOR #$5A`. -/
theorem test_eor_zero :
    leads (code [0x49, 0x5A] { start with a := 0x5A })
      (fun s =>
        { s with a := 0x00, pc := 0x0202, debt := 1, flags := { s.flags with z := true } }) = true := by decide

/-- V67, `CMP #$80`. -/
theorem test_cmp_less :
    leads (code [0xC9, 0x80] { start with a := 0x00 })
      (fun s => { s with pc := 0x0202, debt := 1, flags := { s.flags with n := true } }) = true := by decide

/-- V68, `CMP #$01`. -/
theorem test_cmp_ignores_d :
    leads (code [0xC9, 0x01] { start with a := 0xFF, flags := { noFlags with d := true } })
      (fun s =>
        { s with pc := 0x0202, debt := 1, flags := { s.flags with n := true, c := true } }) = true := by decide

/-- V69, `CPX $10`. -/
theorem test_cpx_less :
    leads (put [(0x0010, 0xFF)]
        (code [0xE4, 0x10] { start with x := 0x00, flags := { noFlags with n := true, z := true, c := true } }))
      (fun s =>
        { s with pc := 0x0202, debt := 2, flags := { s.flags with n := false, z := false, c := false } }) = true := by decide

/-- V70, `CPY #$00`. -/
theorem test_cpy_greater :
    leads (code [0xC0, 0x00] { start with y := 0x80 })
      (fun s =>
        { s with pc := 0x0202, debt := 1, flags := { s.flags with n := true, c := true } }) = true := by decide

/-- V72, `BIT $10`. -/
theorem test_bit_takes_v_from_memory :
    leads (put [(0x0010, 0x40)] (code [0x24, 0x10] { start with a := 0xFF }))
      (fun s => { s with pc := 0x0202, debt := 2, flags := { s.flags with v := true } }) = true := by decide

/-- V71, `BIT $0200`. -/
theorem test_bit_clears_nothing_else :
    leads (code [0x2C, 0x00, 0x02] { start with a := 0xFF })
      (fun s => { s with pc := 0x0203, debt := 3 }) = true := by decide

/-- V73, `INC $10`. -/
theorem test_inc_wraps :
    leads (put [(0x0010, 0xFF)] (code [0xE6, 0x10] start))
      (fun s =>
        put [(0x0010, 0x00)] { s with pc := 0x0202, debt := 4, flags := { s.flags with z := true } }) = true := by decide

/-- V75, `INC $12F0,X`. -/
theorem test_inc_crossing_costs_nothing :
    leads (put [(0x1310, 0x41)] (code [0xFE, 0xF0, 0x12] { start with x := 0x20 }))
      (fun s => put [(0x1310, 0x42)] { s with pc := 0x0203, debt := 6 }) = true := by decide

/-- V74, `DEC $10,X`. -/
theorem test_dec_zero_page_wraps :
    leads (put [(0x0005, 0x00)] (code [0xD6, 0x10] { start with x := 0xF5 }))
      (fun s =>
        put [(0x0005, 0xFF)] { s with pc := 0x0202, debt := 5, flags := { s.flags with n := true } }) = true := by decide

/-- V76, `INX`. -/
theorem test_inx_wraps :
    leads (code [0xE8] { start with x := 0xFF })
      (fun s =>
        { s with x := 0x00, pc := 0x0201, debt := 1, flags := { s.flags with z := true } }) = true := by decide

/-- V77, `INY`. -/
theorem test_iny_negative :
    leads (code [0xC8] { start with y := 0x7F })
      (fun s =>
        { s with y := 0x80, pc := 0x0201, debt := 1, flags := { s.flags with n := true } }) = true := by decide

/-- V78, `DEX`. -/
theorem test_dex_wraps :
    leads (code [0xCA] { start with x := 0x00 })
      (fun s =>
        { s with x := 0xFF, pc := 0x0201, debt := 1, flags := { s.flags with n := true } }) = true := by decide

/-- V79, `DEY`. -/
theorem test_dey_zero :
    leads (code [0x88] { start with y := 0x01 })
      (fun s =>
        { s with y := 0x00, pc := 0x0201, debt := 1, flags := { s.flags with z := true } }) = true := by decide

/-! ### 44_shift_rotate: vectors of 95_test_vectors -/

/-- V80, `ASL A`. -/
theorem test_asl_accumulator_carry :
    leads (code [0x0A] { start with a := 0x80 })
      (fun s =>
        { s with a := 0x00, pc := 0x0201, debt := 1, flags := { s.flags with z := true, c := true } }) = true := by decide

/-- V86, `ASL $12F0,X`. -/
theorem test_asl_memory :
    leads (put [(0x1310, 0x01)] (code [0x1E, 0xF0, 0x12] { start with x := 0x20 }))
      (fun s => put [(0x1310, 0x02)] { s with pc := 0x0203, debt := 6 }) = true := by decide

/-- V82, `LSR A`. -/
theorem test_lsr_clears_n :
    leads (code [0x4A] { start with a := 0x01, flags := { noFlags with n := true } })
      (fun s =>
        { s with a := 0x00, pc := 0x0201, debt := 1, flags := { s.flags with n := false, z := true, c := true } }) = true := by decide

/-- V83, `ROL A`. -/
theorem test_rol_takes_the_old_carry :
    leads (code [0x2A] { start with a := 0x80, flags := { noFlags with c := true } })
      (fun s => { s with a := 0x01, pc := 0x0201, debt := 1 }) = true := by decide

/-- V84, `ROR $10`. -/
theorem test_ror_takes_the_old_carry :
    leads (put [(0x0010, 0x00)] (code [0x66, 0x10] { start with flags := { noFlags with c := true } }))
      (fun s =>
        put [(0x0010, 0x80)] { s with pc := 0x0202, debt := 4, flags := { s.flags with n := true, c := false } }) = true := by decide

/-- V85, `ROR A`. -/
theorem test_ror_carry_out :
    leads (code [0x6A] { start with a := 0x01 })
      (fun s =>
        { s with a := 0x00, pc := 0x0201, debt := 1, flags := { s.flags with z := true, c := true } }) = true := by decide

/-! ### 45_control_transfer: vectors of 95_test_vectors -/

/-- V11, `JMP ($12FF)`. -/
theorem test_jmp_indirect_stays_in_the_page :
    leads (put [(0x12FF, 0x00), (0x1200, 0x40), (0x1300, 0x50)] (code [0x6C, 0xFF, 0x12] start))
      (fun s => { s with pc := 0x4000, debt := 4 }) = true := by decide

/-- V87, `JMP $0200`. -/
theorem test_jmp_to_itself :
    leads (code [0x4C, 0x00, 0x02] start)
      (fun s => { s with pc := 0x0200, debt := 2 }) = true := by decide

/-- V88, `JSR $1000`. -/
theorem test_jsr_stack_wraps :
    leads (code [0x20, 0x00, 0x10] { start with sp := 0x00 })
      (fun s =>
        put [(0x0100, 0x02), (0x01FF, 0x02)] { s with sp := 0xFE, pc := 0x1000, debt := 5 }) = true := by decide

/-- V89, `JSR $1000`. -/
theorem test_jsr_pc_wraps :
    leads (code [0x20, 0x00, 0x10] { start with pc := 0xFFFE })
      (fun s =>
        put [(0x01FF, 0x00), (0x01FE, 0x00)] { s with sp := 0xFD, pc := 0x1000, debt := 5 }) = true := by decide

/-- V90, `RTS`. -/
theorem test_rts_pc_wraps :
    leads (put [(0x01FE, 0xFF), (0x01FF, 0xFF)] (code [0x60] { start with sp := 0xFD }))
      (fun s => { s with sp := 0xFF, pc := 0x0000, debt := 5 }) = true := by decide

/-- V91, `BCC $0212`. -/
theorem test_bcc_taken :
    leads (code [0x90, 0x10] start)
      (fun s => { s with pc := 0x0212, debt := 2 }) = true := by decide

/-- V92, `BCS $0212`. -/
theorem test_bcs_not_taken :
    leads (code [0xB0, 0x10] start)
      (fun s => { s with pc := 0x0202, debt := 1 }) = true := by decide

/-- V93, `BEQ $0300`. -/
theorem test_beq_crossing :
    leads (code [0xF0, 0x01] { start with pc := 0x02FD, flags := { noFlags with z := true } })
      (fun s => { s with pc := 0x0300, debt := 3 }) = true := by decide

/-- V94, `BMI $01FE`. -/
theorem test_bmi_backward :
    leads (code [0x30, 0xFC] { start with flags := { noFlags with n := true } })
      (fun s => { s with pc := 0x01FE, debt := 3 }) = true := by decide

/-- V95, `BNE $0202`. -/
theorem test_bne_zero_displacement :
    leads (code [0xD0, 0x00] start)
      (fun s => { s with pc := 0x0202, debt := 2 }) = true := by decide

/-- V96, `BPL $0282`. -/
theorem test_bpl_farthest_backward :
    leads (code [0x10, 0x80] { start with pc := 0x0300 })
      (fun s => { s with pc := 0x0282, debt := 3 }) = true := by decide

/-- V97, `BVC $0381`. -/
theorem test_bvc_farthest_forward :
    leads (code [0x50, 0x7F] { start with pc := 0x0300 })
      (fun s => { s with pc := 0x0381, debt := 2 }) = true := by decide

/-- V98, `BVS $0071`. -/
theorem test_bvs_target_wraps :
    leads (code [0x70, 0x7F] { start with pc := 0xFFF0, flags := { noFlags with v := true } })
      (fun s => { s with pc := 0x0071, debt := 3 }) = true := by decide

/-! ### 46_flags_system: vectors of 95_test_vectors -/

/-- V99, `CLC`. -/
theorem test_clc :
    leads (code [0x18] { start with flags := { noFlags with c := true } })
      (fun s => { s with pc := 0x0201, debt := 1, flags := { s.flags with c := false } }) = true := by decide

/-- V102, `CLD`. -/
theorem test_cld :
    leads (code [0xD8] { start with flags := { noFlags with d := true } })
      (fun s => { s with pc := 0x0201, debt := 1, flags := { s.flags with d := false } }) = true := by decide

/-- V104, `CLI`. -/
theorem test_cli :
    leads (code [0x58] { start with flags := { noFlags with i := true } })
      (fun s => { s with pc := 0x0201, debt := 1, flags := { s.flags with i := false } }) = true := by decide

/-- V106, `CLV`. -/
theorem test_clv :
    leads (code [0xB8] { start with flags := { noFlags with v := true } })
      (fun s => { s with pc := 0x0201, debt := 1, flags := { s.flags with v := false } }) = true := by decide

/-- V101, `SEC`. -/
theorem test_sec :
    leads (code [0x38] start)
      (fun s => { s with pc := 0x0201, debt := 1, flags := { s.flags with c := true } }) = true := by decide

/-- V103, `SED`. -/
theorem test_sed :
    leads (code [0xF8] start)
      (fun s => { s with pc := 0x0201, debt := 1, flags := { s.flags with d := true } }) = true := by decide

/-- V105, `SEI`. -/
theorem test_sei :
    leads (code [0x78] start)
      (fun s => { s with pc := 0x0201, debt := 1, flags := { s.flags with i := true } }) = true := by decide

/-- V107, `NOP`. -/
theorem test_nop :
    leads (code [0xEA] start)
      (fun s => { s with pc := 0x0201, debt := 1 }) = true := by decide

/-- V108, `BRK`. -/
theorem test_brk_runs_although_i_is_set :
    leads (put [(0xFFFE, 0x00), (0xFFFF, 0x90)]
        (code [0x00] { start with flags := { noFlags with i := true, d := true, c := true } }))
      (fun s =>
        put [(0x01FF, 0x02), (0x01FE, 0x02), (0x01FD, 0x3D)] { s with sp := 0xFC, pc := 0x9000, debt := 6, flags := { s.flags with b := true } }) = true := by decide

/-- V109, `RTI`. -/
theorem test_rti_adds_no_one :
    leads (put [(0x01FD, 0x00), (0x01FE, 0x34), (0x01FF, 0x12)]
        (code [0x40] { start with sp := 0xFC, flags := { noFlags with i := true } }))
      (fun s =>
        { s with sp := 0xFF, pc := 0x1234, debt := 5, flags := { s.flags with i := false } }) = true := by decide
/-- V110, V111. -/
theorem test_unassigned_stops :
    stops (code [0x02] { start with a := 0x11 }) 0x02 = true ∧ stops (code [0xFF] start) 0xFF = true := by decide

/-! ### The sequences (60_exceptions, 70_reset_and_hazards) -/

/-- R160: Reset keeps A and the store, sets SP, I, D and takes the word at 0xFFFC. -/
theorem test_reset_sequence :
    leads (load 0xFFFC [0x34, 0x12]
        { start with
          a := 0x11, sp := 0x10, resetPending := true, nmiPending := true, flags := { noFlags with d := true } })
      (fun s => { s with
        pc := 0x1234, sp := 0xFF, debt := 6, resetPending := false, nmiPending := false
        flags := { noFlags with i := true } }) = true := by decide

/-- R161: NMI is taken although I is set; the pushed status has B = 0 (0x24), the stack wraps. -/
theorem test_nmi_sequence :
    leads (load 0xFFFA [0x00, 0x80] { start with sp := 0x01, nmiPending := true, flags := { noFlags with i := true } })
      (fun s => put [(0x0101, 0x02), (0x0100, 0x00), (0x01FF, 0x24)]
        { s with pc := 0x8000, sp := 0xFE, debt := 6, nmiPending := false }) = true := by decide

/-- R161: IRQ is taken when I is clear, and the line stays as it is. -/
theorem test_irq_sequence :
    leads (load 0xFFFE [0x00, 0x90] { start with irqLine := true, flags := { noFlags with b := true } })
      (fun s => put [(0x01FF, 0x02), (0x01FE, 0x00), (0x01FD, 0x20)]
        { s with pc := 0x9000, sp := 0xFC, debt := 6, flags := { noFlags with i := true } }) = true := by decide

/-- R158: a masked IRQ does not stop NOP from running. -/
theorem test_masked_irq :
    leads (code [0xEA] { start with irqLine := true, flags := { noFlags with i := true } })
      (fun s => { s with pc := 0x0201, debt := 1 }) = true := by decide

/-- R31: only a rising edge of the NMI line latches a request. -/
theorem test_nmi_edge :
    (setNmi true start).nmiPending = true ∧ (setNmi true { start with nmiLine := true }).nmiPending = false ∧
      (setNmi false { start with nmiLine := true }).nmiPending = false := by decide

/-- R77, R81: a Busy step only counts down, whatever is requested. -/
theorem test_busy_step :
    leads { start with debt := 6, resetPending := true } (fun s => { s with debt := 5 }) = true := by decide

/-- A byte read back, and the canonical form after a byte is set back to 0. -/
theorem test_memory_canonical :
    (put [(0x0300, 0x05), (0x0010, 0x01), (0x0300, 0x00)] start).mem = [(0x0010, 0x01)] ∧
      (put [(0xFFFF, 0x05)] start).read16 0xFFFF = 0x0005 := by decide

/-! ### Witnesses: for each obligation with hypotheses, a state and operands that meet all of them -/

/-- A state at a boundary with NOP at PC. -/
def nopReady : State := code [0xEA] start

theorem test_decodeOfEncode_witness :
    (Instr.lda (.memory (.absoluteX 0x1234))).WellFormed ∧ (Instr.unassigned 0xFF).WellFormed := by decide

theorem test_encodeOfDecode_witness :
    decode [0xBD, 0x34, 0x12, 0x99] = .instr (.lda (.memory (.absoluteX 0x1234))) [0x99] ∧
      decode [0x02, 0x99] = .instr (.unassigned 0x02) [0x99] := by decide

theorem test_stepRunsTheDecodedInstruction_witness :
    (nopReady.debt = 0 ∧ sample nopReady = .noEvent) ∧
      decode [nopReady.read nopReady.pc, nopReady.read (nopReady.pc + 1), nopReady.read (nopReady.pc + 2)] =
        .instr .nop [0x00, 0x00] ∧ Instr.nop.WellFormed := by decide

theorem test_busyStep_witness : 0 < State.reset.debt := by decide

theorem test_requestsAreSampled_witness :
    ((assertReset start).debt = 0 ∧ (assertReset start).resetPending = true) ∧
    ((setNmi true start).debt = 0 ∧ (setNmi true start).resetPending = false ∧ (setNmi true start).nmiPending = true) ∧
    ((setIrq true start).resetPending = false ∧ (setIrq true start).nmiPending = false ∧
      (setIrq true start).irqLine = true ∧ (setIrq true start).flags.i = false) ∧
    (start.debt = 0 ∧ start.resetPending = false ∧ start.nmiPending = false ∧ start.irqLine = false) ∧
    0 < State.reset.debt := by decide

/-- NOP with I set, the line low. -/
theorem test_maskedIrq_witness :
    ∃ t, ({ nopReady with flags.i := true } : State).flags.i = true ∧
      step { { nopReady with flags.i := true } with irqLine := false } = .next t := ⟨_, by decide, rfl⟩

/-- CLI with I set, and SEI with I clear, the IRQ line at 1. -/
theorem test_cliAndSei_witness :
    (setIrq true start).irqLine = true ∧ (setIrq true start).resetPending = false ∧
      (setIrq true start).nmiPending = false ∧
      (∃ t u, exec .cli { setIrq true start with flags.i := true } = .next t ∧
        Sys2Proof.core.run t.debt t = .next u) ∧
      (∃ t u, exec .sei (setIrq true start) = .next t ∧ Sys2Proof.core.run t.debt t = .next u) :=
  ⟨by decide, by decide, by decide, ⟨_, _, rfl, rfl⟩, ⟨_, _, rfl, rfl⟩⟩

theorem test_resetSequence_witness : (assertReset start).debt = 0 ∧ (assertReset start).resetPending = true := by decide

theorem test_interruptSequences_witness :
    start.debt = 0 ∧ (setNmi true start).resetPending = false ∧ (setNmi true start).nmiPending = true ∧
      (setIrq true start).resetPending = false ∧ (setIrq true start).nmiPending = false ∧
      (setIrq true start).irqLine = true ∧ (setIrq true start).flags.i = false := by decide

theorem test_unassignedOpcode_witness :
    ((code [0xFF] start).debt = 0 ∧ sample (code [0xFF] start) = .noEvent) ∧
      (code [0xFF] start).read (code [0xFF] start).pc ∈ unassignedOpcodes := by decide

theorem test_seventhStep_witness :
    (assertReset start).debt = 0 ∧ (assertReset start).resetPending = true ∧ 1 ≤ 6 ∧ 6 < 7 := by decide

theorem test_busyCalls_witness : 6 ≤ State.reset.debt := by decide

theorem test_stepKeepsInvariant_witness :
    (Memory.wf nopReady.mem = true ∧ nopReady.debt ≤ 6) ∧ ∃ t, step nopReady = .next t := ⟨by decide, _, rfl⟩

theorem test_driverCalls_witness : Memory.wf (put [(0xFFFF, 0x01)] State.reset).mem = true ∧ State.reset.debt ≤ 6 := by
  decide

theorem test_stepNeverWritesLines_witness : ∃ t, step (setIrq true State.reset) = .next t := ⟨_, rfl⟩

/-- Both pending requests, at a boundary: the Reset sequence clears both, and the NMI sequence its own. -/
theorem test_pendingRequests_witness :
    (∃ t, step { start with resetPending := true, nmiPending := true } = .next t ∧ t.resetPending = false ∧
      t.nmiPending = false) ∧
    (∃ t, step { start with nmiPending := true } = .next t ∧ t.nmiPending = false) ∧
    (∃ t, step { start with debt := 1, resetPending := true, nmiPending := true } = .next t ∧ t.resetPending = true ∧
      t.nmiPending = true) :=
  ⟨⟨_, rfl, rfl, rfl⟩, ⟨_, rfl, rfl⟩, ⟨_, rfl, rfl, rfl⟩⟩

theorem test_requestOperations_witness : (∃ t, step (setIrq true State.reset) = .next t) ∧ start.debt = 0 :=
  ⟨⟨_, rfl⟩, by decide⟩

/-- The pointer at 0xFF and X = Y = 0xFF, the ends of their ranges. -/
theorem test_resolver_witness :
    wordOf ((put [(0x00FF, 0x80), (0x0000, 0x31)] start).read (BitVec.ofNat 16 (0xFF : Byte).toNat))
      ((put [(0x00FF, 0x80), (0x0000, 0x31)] start).read (BitVec.ofNat 16 (((0xFF : Byte).toNat + 1) % 256))) =
      0x3180 := by decide

theorem test_assignedOpcodes_witness :
    descriptor 0xB1 = .assigned .indirectY .lda 5 ∧ descriptor 0x9D = .assigned .absoluteX .sta 5 ∧
      descriptor 0xF0 = .assigned .relative .beq 2 := by decide

/-- Both forms of the operand: `LDA #$80`, and `LDA $FF,X` with X = 1, which reads 0x0000 (V2). -/
theorem test_loads_witness :
    (0x80 : Byte) = (match ReadOperand.immediate 0x80 with
      | .immediate b => b
      | .memory m => start.read (resolve m start).ea) ∧
    (0x44 : Byte) = (match ReadOperand.memory (.zeroPageX 0xFF) with
      | .immediate b => b
      | .memory m => (put [(0x0000, 0x44)] { start with x := 0x01 }).read
          (resolve m (put [(0x0000, 0x44)] { start with x := 0x01 })).ea) := by decide

/-- The cost of STA in each mode, as R74 gives it. -/
theorem test_stores_witness :
    (3 : Nat) = (match MemOperand.zeroPage 0xFF with
      | .zeroPage _ => 3 | .zeroPageX _ => 4 | .zeroPageY _ => 4 | .absolute _ => 4
      | .absoluteX _ => 5 | .absoluteY _ => 5 | .indirectX _ => 6 | .indirectY _ => 6) ∧
    (6 : Nat) = (match MemOperand.indirectY 0xFF with
      | .zeroPage _ => 3 | .zeroPageX _ => 4 | .zeroPageY _ => 4 | .absolute _ => 4
      | .absoluteX _ => 5 | .absoluteY _ => 5 | .indirectX _ => 6 | .indirectY _ => 6) := by decide

/-- SP = 0xFF: the byte pulled lies at 0x0100. -/
theorem test_pullInstructions_witness :
    (0x80 : Byte) = (put [(0x0100, 0x80)] start).read (stackAddress ((put [(0x0100, 0x80)] start).sp + 1)) := by decide

theorem test_pushThenPull_witness :
    (∃ t u, exec .pha { start with sp := 0x00 } = .next t ∧ exec .pla t = .next u) ∧
      (∃ t u, exec .php { start with sp := 0x00 } = .next t ∧ exec .plp t = .next u) :=
  ⟨⟨_, _, rfl, rfl⟩, ⟨_, _, rfl, rfl⟩⟩

/-- 0x80 + 0x80 + 1, with D = 0, and with D = 1 where DECIMAL_ENABLED is false. -/
theorem test_adcBinary_witness :
    ∀ s ∈ [{ start with a := 0x80, flags := { noFlags with c := true } },
        { start with a := 0x80, decimalEnabled := false, flags := { noFlags with c := true, d := true } }],
      (s.flags.d = false ∨ s.decimalEnabled = false) ∧
        257 = s.a.toNat + (operandValue (.immediate 0x80) s).toNat + s.flags.c.toNat ∧
        (-255 : Int) = s.a.toInt + (operandValue (.immediate 0x80) s).toInt + s.flags.c.toNat := by decide

/-- V52: 58 + 46 + 1 in decimal. -/
def decimalAdd : State := { start with a := 0x58, flags := { noFlags with c := true, d := true } }

theorem test_adcDecimal_witness :
    decimalAdd.flags.d = true ∧ decimalAdd.decimalEnabled = true ∧ 0x58 = decimalAdd.a.toNat ∧
      0x46 = (operandValue (.immediate 0x46) decimalAdd).toNat ∧ 1 = decimalAdd.flags.c.toNat ∧
      15 = 0x58 % 16 + 0x46 % 16 + 1 ∧ 21 = (if 10 ≤ 15 then (15 + 6) % 16 + 16 else 15) ∧
      165 = 0x58 / 16 * 16 + 0x46 / 16 * 16 + 21 ∧ 261 = (if 160 ≤ 165 then 165 + 96 else 165) ∧
      (165 : Int) = (if 128 ≤ 0x58 then (0x58 / 16 * 16 : Int) - 256 else 0x58 / 16 * 16) +
        (if 128 ≤ 0x46 then (0x46 / 16 * 16 : Int) - 256 else 0x46 / 16 * 16) + 21 := by decide

theorem test_adcDecimalNumbers_witness :
    decimalAdd.flags.d = true ∧ decimalAdd.decimalEnabled = true ∧
      (decimalAdd.a.toNat / 16 ≤ 9 ∧ decimalAdd.a.toNat % 16 ≤ 9) ∧
      ((operandValue (.immediate 0x99) decimalAdd).toNat / 16 ≤ 9 ∧
        (operandValue (.immediate 0x99) decimalAdd).toNat % 16 ≤ 9) := by decide

/-- 0x00 - 0xFF with a borrow in, with D = 0 and with D = 1 where DECIMAL_ENABLED is false. -/
theorem test_sbcBinary_witness :
    ∀ s ∈ [start, { start with decimalEnabled := false, flags := { noFlags with d := true } }],
      (-256 : Int) = s.a.toNat - (operandValue (.immediate 0xFF) s).toNat - (1 - s.flags.c.toNat) ∧
        (0 : Int) = s.a.toInt - (operandValue (.immediate 0xFF) s).toInt - (1 - s.flags.c.toNat) ∧
        (s.flags.d = false ∨ s.decimalEnabled = false) := by decide

/-- V60: 32 - 02 with a borrow in, in decimal. -/
def decimalSub : State := { start with a := 0x32, flags := { noFlags with d := true } }

theorem test_sbcDecimal_witness :
    decimalSub.flags.d = true ∧ decimalSub.decimalEnabled = true ∧ (0x32 : Int) = decimalSub.a.toNat ∧
      (0x02 : Int) = (operandValue (.immediate 0x02) decimalSub).toNat ∧ (0 : Int) = decimalSub.flags.c.toNat ∧
      (-1 : Int) = 0x32 % 16 - 0x02 % 16 + 0 - 1 ∧
      (-7 : Int) = (if (-1 : Int) < 0 then (-1 - 6) % 16 - 16 else -1) ∧
      (41 : Int) = 0x32 / 16 * 16 - 0x02 / 16 * 16 + -7 := by decide

theorem test_sbcDecimalNumbers_witness :
    decimalSub.flags.d = true ∧ decimalSub.decimalEnabled = true ∧
      (decimalSub.a.toNat / 16 ≤ 9 ∧ decimalSub.a.toNat % 16 ≤ 9) ∧
      ((operandValue (.immediate 0x99) decimalSub).toNat / 16 ≤ 9 ∧
        (operandValue (.immediate 0x99) decimalSub).toNat % 16 ≤ 9) := by decide

theorem test_bit_witness :
    (0x40 : Byte) = (put [(0x0010, 0x40)] start).read (resolve (.zeroPage 0x10) (put [(0x0010, 0x40)] start)).ea := by
  decide

theorem test_compares_witness : (0x80 : Byte) = operandValue (.immediate 0x80) start := by decide

/-- INC $FFFF,X with X = 1: the address wraps to 0x0000. -/
theorem test_incDecMemory_witness :
    (0x0000 : Word) = (resolve (RmwOperand.absoluteX 0xFFFF).toMem { start with x := 0x01 }).ea ∧
      (7 : Nat) = (match RmwOperand.absoluteX 0xFFFF with
        | .zeroPage _ => 5 | .zeroPageX _ => 6 | .absolute _ => 6 | .absoluteX _ => 7) := by decide

/-- 0x81 with C = 1, in A and at 0x0010: the premise of each of the four clauses. -/
theorem test_shifts_witness :
    (∀ s ∈ [put [(0x0010, 0x81)] { start with a := 0x81, flags := { noFlags with c := true } }],
      ∀ dst ∈ [ShiftOperand.accumulator, .memory (.zeroPage 0x10)],
        0x81 = (match dst with
          | .accumulator => s.a.toNat
          | .memory m => (s.read (resolve m.toMem s).ea).toNat) ∧ 1 = s.flags.c.toNat) ∧
    ((0x02 = 0x81 * 2 % 256 ∧ true = decide (128 ≤ 0x81)) ∧ (0x40 = 0x81 / 2 ∧ true = decide (0x81 % 2 = 1)) ∧
      0x03 = 0x81 * 2 % 256 + 1 ∧ 0xC0 = 0x81 / 2 + 128 * 1) := by decide

/-- A subroutine call and its return from SP = 0x00. -/
theorem test_rts_witness :
    ∃ t u, exec (.jsr 0x1000) { start with sp := 0x00 } = .next t ∧ exec .rts t = .next u := ⟨_, _, rfl, rfl⟩

/-- Each of the eight branches, taken and not taken, from the same displacement -128 at PC = 0xFFFE. -/
theorem test_branches_witness :
    (0x0000 : Word) = 0xFFFE + 2 ∧
    ((0xFF80 : Word).toNat : Int) = (((0x0000 : Word).toNat : Int) + (0x80 : Byte).toInt) % 65536 ∧
    (∀ f ∈ [noFlags, { noFlags with c := true, z := true, n := true, v := true }],
      ∀ p ∈ [(Instr.bcc 0x80, !f.c), (.bcs 0x80, f.c), (.beq 0x80, f.z), (.bne 0x80, !f.z), (.bmi 0x80, f.n),
        (.bpl 0x80, !f.n), (.bvc 0x80, !f.v), (.bvs 0x80, f.v)],
      p ∈ [(Instr.bcc 0x80, !f.c), (.bcs 0x80, f.c), (.beq 0x80, f.z), (.bne 0x80, !f.z), (.bmi 0x80, f.n),
        (.bpl 0x80, !f.n), (.bvc 0x80, !f.v), (.bvs 0x80, f.v)]) := by decide

theorem test_flagInstructions_witness :
    ((0x58 : Byte), Instr.cli, ({ start.flags with i := false } : Flags)) ∈
      [((0x18 : Byte), Instr.clc, ({ start.flags with c := false } : Flags)),
        (0xD8, .cld, { start.flags with d := false }), (0x58, .cli, { start.flags with i := false }),
        (0xB8, .clv, { start.flags with v := false }), (0x38, .sec, { start.flags with c := true }),
        (0xF8, .sed, { start.flags with d := true }), (0x78, .sei, { start.flags with i := true }),
        (0xEA, .nop, start.flags)] := by decide

/-- SP = 0xFC: the status pulled lies at 0x01FD. -/
theorem test_rti_witness :
    (0x30 : Byte) = (put [(0x01FD, 0x30)] { start with sp := 0xFC }).read (stackAddress (0xFC + 1)) := by decide

/-- BRK, an NMI and an IRQ, each followed by RTI, from SP = 0x01 so that the stack wraps. -/
theorem test_rtiUndoes_witness :
    (∃ t u, exec .brk { start with sp := 0x01 } = .next t ∧ exec .rti t = .next u) ∧
    (∃ t u, (sample { start with sp := 0x01, nmiPending := true } = .nmi ∧
      step { start with sp := 0x01, nmiPending := true } = .next t) ∧ exec .rti t = .next u) ∧
    (∃ t u, (sample { start with sp := 0x01, irqLine := true } = .irq ∧
      step { start with sp := 0x01, irqLine := true } = .next t) ∧ exec .rti t = .next u) :=
  ⟨⟨_, _, rfl, rfl⟩, ⟨_, _, ⟨rfl, rfl⟩, rfl⟩, ⟨_, _, ⟨rfl, rfl⟩, rfl⟩⟩

/-- Each register changed by one instruction, and a step that is no instruction. -/
theorem test_registerWriters_witness :
    (∃ t, exec (.lda (.immediate 0x01)) start = .next t ∧ t.a ≠ start.a) ∧
    (∃ t, exec .inx start = .next t ∧ t.x ≠ start.x) ∧ (∃ t, exec .dey start = .next t ∧ t.y ≠ start.y) ∧
    (∃ t, exec .pha start = .next t ∧ t.sp ≠ start.sp) ∧ (∃ t, step State.reset = .next t ∧ State.reset.debt ≠ 0) :=
  ⟨⟨_, rfl, by decide⟩, ⟨_, rfl, by decide⟩, ⟨_, rfl, by decide⟩, ⟨_, rfl, by decide⟩, ⟨_, rfl, by decide⟩⟩

/-- Each flag changed by one instruction. -/
theorem test_flagWriters_witness :
    (∃ t, exec .sec start = .next t ∧ t.flags.c ≠ start.flags.c) ∧
    (∃ t, exec (.lda (.immediate 0x00)) start = .next t ∧ t.flags.z ≠ start.flags.z) ∧
    (∃ t, exec (.lda (.immediate 0x80)) start = .next t ∧ t.flags.n ≠ start.flags.n) ∧
    (∃ t, exec .sei start = .next t ∧ t.flags.i ≠ start.flags.i) ∧
    (∃ t, exec .sed start = .next t ∧ t.flags.d ≠ start.flags.d) ∧
    (∃ t, exec .brk start = .next t ∧ t.flags.b ≠ start.flags.b) ∧
    (∃ t, exec (.bit (.zeroPage 0x10)) (put [(0x0010, 0x40)] start) = .next t ∧ t.flags.v ≠ start.flags.v) :=
  ⟨⟨_, rfl, by decide⟩, ⟨_, rfl, by decide⟩, ⟨_, rfl, by decide⟩, ⟨_, rfl, by decide⟩, ⟨_, rfl, by decide⟩,
    ⟨_, rfl, by decide⟩, ⟨_, rfl, by decide⟩⟩

/-- A byte changed by a store, by INC, and by each kind of push (SP = 0xFF; BRK's third byte is P = 0x30). -/
theorem test_memoryWriters_witness :
    (∃ t, exec (.sta (.absolute 0xFFFF)) { start with a := 0x01 } = .next t ∧
      t.read 0xFFFF ≠ ({ start with a := 0x01 } : State).read 0xFFFF) ∧
    (∃ t, exec (.inc (.zeroPage 0x10)) start = .next t ∧ t.read 0x0010 ≠ start.read 0x0010) ∧
    (∃ t, exec .pha { start with a := 0x01 } = .next t ∧
      t.read 0x01FF ≠ ({ start with a := 0x01 } : State).read 0x01FF) ∧
    (∃ t, exec (.jsr 0x1000) start = .next t ∧ t.read 0x01FE ≠ start.read 0x01FE) ∧
    (∃ t, exec .brk start = .next t ∧ t.read 0x01FD ≠ start.read 0x01FD) :=
  ⟨⟨_, rfl, by decide⟩, ⟨_, rfl, by decide⟩, ⟨_, rfl, by decide⟩, ⟨_, rfl, by decide⟩, ⟨_, rfl, by decide⟩⟩

/-- STA $0203 at 0x0200 stores the next opcode; with LDA # at 0x0203, STA $0204 stores its operand. -/
theorem test_storeIntoStream_witness :
    (∃ t, exec (.sta (.absolute 0x0203)) start = .next t ∧ (resolve (.absolute 0x0203) start).ea = t.pc) ∧
    (∃ t, exec (.sta (.absolute 0x0204)) (load 0x0203 [0xA9] start) = .next t ∧
      (resolve (.absolute 0x0204) (load 0x0203 [0xA9] start)).ea = t.pc + 1 ∧
      1 ≤ (descriptor ((load 0x0203 [0xA9] start).read t.pc)).operandCount) :=
  ⟨⟨_, rfl, by decide⟩, ⟨_, rfl, by decide, by decide⟩⟩

end Sys2Proof.Tests
end

section
/-! PROOFS. The family 10_state: the invariant of the machine, the writers of the registers and of the flags, the
driver's requests and the packed status. -/

namespace Sys2Proof.Machine

variable {i : Instr} {s t : State}

/-! ### The invariant (10_state R25, R28; 20_memory R35; 70 R180) -/

/-- Every meaning ends by re-arming the debt with a cost of at most 7 cycles (70 R180). -/
theorem State.rearm_inv {u : State} {k : Nat} (hm : Memory.wf u.mem = true) (hk : k ≤ 7) : (u.rearm k).Inv :=
  ⟨hm, Nat.sub_le_of_le_add hk⟩

theorem readCost_le_seven (src : ReadOperand) : readCost src s ≤ 7 :=
  (readCost_bounds s src).2.trans (by decide)

theorem storeCost_le_seven (dst : MemOperand) : storeCost dst ≤ 7 :=
  (storeCost_bounds dst).2.trans (by decide)

theorem shift_inv (dst : ShiftOperand) (r : Byte × Bool) (hm : Memory.wf s.mem = true) : (shift dst r s).Inv := by
  cases dst with
  | accumulator => exact State.rearm_inv hm (shiftCost_bounds .accumulator).2
  | memory m => exact State.rearm_inv (s.write_wf _ r.1 hm) (shiftCost_bounds (.memory m)).2

theorem branch_inv (taken : Bool) (d : Byte) (hm : Memory.wf s.mem = true) : (branch taken d s).Inv := by
  cases taken <;> exact State.rearm_inv hm ((branchCost_bounds _ _).2.trans (by decide))

/-- An instruction writes memory only through `MemWrite`, and its cost is at most 7. -/
theorem exec_inv (hm : Memory.wf s.mem = true) (h : exec i s = .next t) : t.Inv := by
  cases i with
  | lda src | ldx src | ldy src | adc src | sbc src | and src | ora src | eor src | cmp src | cpx src | cpy src =>
    cases h; exact State.rearm_inv hm (readCost_le_seven src)
  | bit src => cases h; exact State.rearm_inv hm (readCost_le_seven (.memory src))
  | sta dst | stx dst | sty dst => cases h; exact State.rearm_inv (s.write_wf _ _ hm) (storeCost_le_seven dst)
  | inc dst | dec dst => cases h; exact State.rearm_inv (s.write_wf _ _ hm) (rmwCost_bounds dst).2
  | asl dst | lsr dst | rol dst | ror dst => cases h; exact shift_inv dst _ hm
  | bcc d | bcs d | beq d | bmi d | bne d | bpl d | bvc d | bvs d => cases h; exact branch_inv _ d hm
  | jmp tgt => cases h; exact State.rearm_inv hm ((jumpCost_bounds tgt).2.trans (by decide))
  | pha | php => cases h; exact State.rearm_inv (State.push_wf _ _ hm) (by decide)
  | jsr w => cases h; exact State.rearm_inv (State.push16_wf (s.fetched .absolute) _ hm) (by decide)
  | brk => cases h; exact State.rearm_inv (State.enter_wf _ _ _ _ hm) (by decide)
  | tax | tay | txa | tya | tsx | txs | pla | plp | inx | iny | dex | dey | rts | clc | cld | cli | clv | sec | sed
  | sei | nop | rti =>
    cases h; exact State.rearm_inv hm (by decide)
  | unassigned op => cases h

/-- A Step keeps the invariant, whether it is a Busy call, a sequence or an instruction (70 R180). -/
theorem step_inv (hs : s.Inv) (h : step s = .next t) : t.Inv := by
  obtain ⟨hm, hd⟩ := hs
  obtain ⟨-, e⟩ | ⟨-, -, e⟩ | ⟨-, -, e⟩ | ⟨-, -, e⟩ | ⟨-, -, e⟩ := step_cases s <;> rw [e] at h
  · cases h; exact ⟨hm, (Nat.sub_le _ _).trans hd⟩
  · cases h; exact State.rearm_inv hm le_rfl
  · cases h; exact State.rearm_inv (State.enter_wf _ _ _ _ hm) le_rfl
  · cases h; exact State.rearm_inv (s.enter_wf _ _ _ hm) le_rfl
  · exact exec_inv hm h

theorem afterStep_inv (hs : s.Inv) : (afterStep s).Inv := by
  unfold afterStep
  split
  · next h => exact step_inv hs h
  · exact hs
  · exact hs

theorem portWrite_inv (w : PortWrite) (hs : s.Inv) : (portWrite w s).Inv := by
  obtain ⟨hm, hd⟩ := hs
  cases w with
  | a v | x v | y v | sp v | pc v | flags v => exact ⟨hm, hd⟩
  | mem addr v => exact ⟨s.write_wf addr v hm, hd⟩

/-- Settles O17: every instruction, sequence and Busy call keeps the canonical store and the bound of the debt. -/
theorem stepKeepsInvariant : Obligations.StepKeepsInvariant := fun _ _ => step_inv

/-- Settles O19: the request operations touch neither the store nor the debt, the others have a lemma each. -/
theorem driverCallsKeepInvariant : Obligations.DriverCallsKeepInvariant := by
  intro c s hs
  cases c with
  | step => exact afterStep_inv hs
  | setIrq level | setNmi level => exact hs
  | assertReset => exact hs
  | write w => exact portWrite_inv w hs

/-- Settles O18: both starting states list no byte, and their debts are 6 and 0. -/
theorem startingStatesHaveInvariant : Obligations.StartingStatesHaveInvariant :=
  ⟨⟨reset_mem_wf.1, le_rfl⟩, ⟨reset_mem_wf.2, Nat.zero_le 6⟩⟩

/-! ### The writers of the registers and of the flags (10_state R14 to R17, R23)

The case splits are grouped by the operation a meaning is made of, which the equation given to `simp` says. A field the
operation leaves alone makes its premise false; for a field it writes, the type stands in the list. -/

/-- R14 to R16 for a Step that fetches no instruction: a Busy call or one of the three sequences. -/
theorem step_sameAXY_of_not_ready (h : step s = .next t) (hr : ¬ s.Ready) : SameAXY s t := by
  obtain ⟨-, e⟩ | ⟨-, -, e⟩ | ⟨-, -, e⟩ | ⟨-, -, e⟩ | ⟨hd, hn, -⟩ := step_cases s
  case inr.inr.inr.inr => exact absurd ⟨hd, hn⟩ hr
  all_goals
    rw [e] at h
    cases h
    simp [SameAXY, runReset_eq, runNmi_eq, runIrq_eq]

/-- Settles O55: the instructions one by one, the other Steps by `step_sameAXY_of_not_ready`. -/
theorem onlyTheseInstructionsWriteTheRegisters : Obligations.OnlyTheseInstructionsWriteTheRegisters := by
  refine ⟨fun i s t h => ?_, fun _ _ => step_sameAXY_of_not_ready⟩
  cases i with
  | adc src | sbc src => cases h; exact ⟨_, _, rfl, by simp [arithmetic_eq]⟩
  | and src | ora src | eor src => cases h; exact ⟨_, _, rfl, by simp [logic_eq]⟩
  | cmp src | cpx src | cpy src => cases h; exact ⟨_, _, rfl, by simp [comparison_eq]⟩
  | inc dst | dec dst => cases h; exact ⟨_, _, rfl, by simp [writeBack_eq]⟩
  | asl dst | lsr dst | rol dst | ror dst =>
    cases h
    cases dst with
    | accumulator => exact ⟨_, _, rfl, by simp [shift_accumulator_eq, ShiftOperand.mode]⟩
    | memory m => exact ⟨_, _, rfl, by simp [shift_memory_eq]⟩
  | tax | tay | txa | tya | tsx => cases h; exact ⟨_, _, rfl, by simp [transfer_eq]⟩
  | inx | iny | dex | dey => cases h; exact ⟨_, _, rfl, by simp [stepIndex]⟩
  | clc | cld | cli | clv | sec | sed | sei => cases h; exact ⟨_, _, rfl, by simp [flagsOnly_eq]⟩
  | bcc d | bcs d | beq d | bmi d | bne d | bpl d | bvc d | bvs d => cases h; exact ⟨_, _, rfl, by simp [branch_eq]⟩
  | lda o | ldx o | ldy o | sta o | stx o | sty o | bit o | jmp o | jsr o => cases h; exact ⟨_, _, rfl, by simp⟩
  | txs | pha | php | pla | plp | rts | nop | brk | rti => cases h; exact ⟨_, _, rfl, by simp⟩
  | unassigned op => cases h

/-- Settles O56: the instructions one by one, each by the flags its operation writes. -/
theorem onlyTheseInstructionsWriteTheFlags : Obligations.OnlyTheseInstructionsWriteTheFlags := by
  intro i s t h
  cases i with
  | adc src | sbc src => cases h; exact ⟨_, _, rfl, by simp [arithmetic_eq, Flags.arith]⟩
  | and src | ora src | eor src => cases h; exact ⟨_, _, rfl, by simp [logic_eq, Flags.setNZ]⟩
  | cmp src | cpx src | cpy src => cases h; exact ⟨_, _, rfl, by simp [comparison_eq, Flags.compare]⟩
  | bit src => cases h; exact ⟨_, _, rfl, by simp [Flags.bitTest]⟩
  | inc dst | dec dst => cases h; exact ⟨_, _, rfl, by simp [writeBack_eq, Flags.setNZ]⟩
  | asl dst | lsr dst | rol dst | ror dst => cases h; exact ⟨_, _, rfl, by simp [shift, Flags.shifted, Flags.setNZ]⟩
  | lda src | ldx src | ldy src => cases h; exact ⟨_, _, rfl, by simp [Flags.setNZ]⟩
  | tax | tay | txa | tya | tsx => cases h; exact ⟨_, _, rfl, by simp [transfer_eq, Flags.setNZ]⟩
  | inx | iny | dex | dey => cases h; exact ⟨_, _, rfl, by simp [stepIndex, Flags.setNZ]⟩
  | pla => cases h; exact ⟨_, _, rfl, by simp [Flags.setNZ]⟩
  | clc | cld | cli | clv | sec | sed | sei => cases h; exact ⟨_, _, rfl, by simp [flagsOnly_eq]⟩
  | bcc d | bcs d | beq d | bmi d | bne d | bpl d | bvc d | bvs d => cases h; exact ⟨_, _, rfl, by simp [branch_eq]⟩
  | sta o | stx o | sty o | jmp o | jsr o => cases h; exact ⟨_, _, rfl, by simp⟩
  | txs | pha | php | plp | rts | nop | brk | rti => cases h; exact ⟨_, _, rfl, by simp⟩
  | unassigned op => cases h

/-! ### The requests (10_state R30 to R32) -/

/-- No instruction writes a request, a line or the configuration input (10_state R26, R27). -/
theorem exec_sameControl (h : exec i s = .next t) : SameControl s t := by
  cases i with
  | adc src | sbc src => cases h; simp [SameControl, arithmetic_eq]
  | and src | ora src | eor src => cases h; simp [SameControl, logic_eq]
  | cmp src | cpx src | cpy src => cases h; simp [SameControl, comparison_eq]
  | inc dst | dec dst => cases h; simp [SameControl, writeBack_eq]
  | asl dst | lsr dst | rol dst | ror dst =>
    cases h; cases dst <;> simp [SameControl, shift_accumulator_eq, shift_memory_eq]
  | tax | tay | txa | tya | tsx => cases h; simp [SameControl, transfer_eq]
  | inx | iny | dex | dey => cases h; simp [SameControl, stepIndex]
  | clc | cld | cli | clv | sec | sed | sei => cases h; simp [SameControl, flagsOnly_eq]
  | bcc d | bcs d | beq d | bmi d | bne d | bpl d | bvc d | bvs d => cases h; simp [SameControl, branch_eq]
  | lda o | ldx o | ldy o | sta o | stx o | sty o | bit o | jmp o | jsr o => cases h; simp [SameControl]
  | txs | pha | php | pla | plp | rts | nop | brk | rti => cases h; simp [SameControl]
  | unassigned op => cases h

/-- No Step writes a line or the configuration input (10_state R27, R30, R31). -/
theorem step_keeps_lines (h : step s = .next t) :
    t.nmiLine = s.nmiLine ∧ t.irqLine = s.irqLine ∧ t.decimalEnabled = s.decimalEnabled := by
  obtain ⟨-, e⟩ | ⟨-, -, e⟩ | ⟨-, -, e⟩ | ⟨-, -, e⟩ | ⟨-, -, e⟩ := step_cases s
  case inr.inr.inr.inr =>
    obtain ⟨-, -, lines⟩ := exec_sameControl (e ▸ h)
    exact lines
  all_goals
    rw [e] at h
    cases h
    simp [runReset_eq, runNmi_eq, runIrq_eq]

/-- `SetNmi` latches exactly the 0-to-1 edge (R31). -/
theorem setNmi_eq (level : Bool) :
    setNmi level s =
      { s with nmiPending := if level = true ∧ s.nmiLine = false then true else s.nmiPending, nmiLine := level } := by
  cases level <;> cases hl : s.nmiLine <;> simp [setNmi, hl]

/-- The line already at `level` is no edge (R31). -/
theorem setNmi_idem (level : Bool) : setNmi level (setNmi level s) = setNmi level s := by
  simp [setNmi]

/-- At a boundary a pending Reset is taken before everything else (60_exceptions R158, R159). -/
theorem step_of_resetPending (hd : s.debt = 0) (hr : s.resetPending = true) : step s = .next s.runReset := by
  simp [step, sample, hd, hr]

/-- Settles O22: each clause is a lemma above or holds by the definition of the operation. -/
theorem requestOperationsEffect : Obligations.RequestOperationsEffect := by
  intro s level
  refine ⟨rfl, fun t h => ?_, setNmi_eq level, setNmi_idem level, rfl, rfl, fun hd => step_of_resetPending hd rfl⟩
  obtain ⟨-, irq, -⟩ := step_keeps_lines h
  exact irq

/-! ### The packed status (10_state R20, R21) -/

theorem getLsbD_bitAt (b : Bool) {j k : Nat} (hk : k < 8) : (bitAt b k).getLsbD j = (b && decide (j = k)) := by
  cases b
  · simp [bitAt]
  · simp only [bitAt, if_true, BitVec.getLsbD_ofNat, Nat.testBit_two_pow, Bool.true_and]
    by_cases h : k = j
    · simp [h, h ▸ hk]
    · simp [h, Ne.symm h]

/-- Bit `j` of the packed status, from the eight bits it is put together from. -/
theorem Flags.getLsbD_pack (f : Flags) (j : Nat) :
    f.pack.getLsbD j =
      (f.n && decide (j = 7) || f.v && decide (j = 6) || decide (j = 5) || f.b && decide (j = 4) ||
        f.d && decide (j = 3) || f.i && decide (j = 2) || f.z && decide (j = 1) || f.c && decide (j = 0)) := by
  simp [Flags.pack, getLsbD_bitAt]

theorem Flags.bits_pack (f : Flags) :
    f.pack.getLsbD 0 = f.c ∧ f.pack.getLsbD 1 = f.z ∧ f.pack.getLsbD 2 = f.i ∧ f.pack.getLsbD 3 = f.d ∧
      f.pack.getLsbD 4 = f.b ∧ f.pack.getLsbD 5 = true ∧ f.pack.getLsbD 6 = f.v ∧ f.pack.getLsbD 7 = f.n := by
  simp only [Flags.getLsbD_pack]
  simp

theorem Flags.unpack_pack (f : Flags) : Flags.unpack f.pack = f := by
  obtain ⟨c, z, i, d, b, -, v, n⟩ := f.bits_pack
  simp only [Flags.unpack, c, z, i, d, b, v, n]

theorem Flags.pack_unpack (v : Byte) : (Flags.unpack v).pack = v ||| 0x20 := by
  refine BitVec.eq_of_getLsbD_eq fun j hj => ?_
  rw [Flags.getLsbD_pack, BitVec.getLsbD_or]
  interval_cases j <;> simp [Flags.unpack]

theorem Flags.unpack_xor_bit5 (v : Byte) : Flags.unpack (v ^^^ 0x20) = Flags.unpack v := by
  simp [Flags.unpack]

/-- Settles O25: the bits of P one by one, both round trips, and bit 5 ignored. -/
theorem packedStatusLayout : Obligations.PackedStatusLayout := fun f v =>
  ⟨f.bits_pack, f.unpack_pack, Flags.pack_unpack v, Flags.unpack_xor_bit5 v⟩

end Sys2Proof.Machine
end

section
/-! PROOFS. The family 20_memory: zero-page pointers, the stack primitives, and a store into the instruction stream. -/

namespace Sys2Proof.Machine

variable {s t : State}

/-! ### Zero-page pointers (20_memory R40) -/

/-- The byte addition itself wraps, so the next zero-page address stays in page 0. -/
theorem zext_add_one (z : Byte) : zext (z + 1) = BitVec.ofNat 16 ((z.toNat + 1) % 256) := by
  rw [zext_eq, BitVec.toNat_add]
  rfl

theorem State.loByte_read16ZP (s : State) (z : Byte) : loByte (s.read16ZP z) = s.read (BitVec.ofNat 16 z.toNat) := by
  rw [State.read16ZP, loByte_wordOf, zext_eq]

theorem State.hiByte_read16ZP (s : State) (z : Byte) :
    hiByte (s.read16ZP z) = s.read (BitVec.ofNat 16 ((z.toNat + 1) % 256)) := by
  rw [State.read16ZP, hiByte_wordOf, zext_add_one]

/-- Settles O23: the third clause is the second at 0xFF, where the address is 256 modulo 256. -/
theorem zeroPagePointerWraps : Obligations.ZeroPagePointerWraps := fun s z =>
  ⟨s.loByte_read16ZP z, s.hiByte_read16ZP z, s.hiByte_read16ZP 0xFF⟩

/-! ### The stack primitives (20_memory R43 to R45) -/

theorem State.push_sameMemBut (s : State) (v : Byte) : SameMemBut s (s.push v) (stackAddress s.sp) := fun a ha => by
  rw [State.read_push, if_neg ha]

/-- A pull reads the very address the push before it wrote (R44). -/
@[simp] theorem State.pullByte_push (s : State) (v : Byte) : (s.push v).pullByte = v := by
  rw [State.pullByte, State.push_sp, BitVec.sub_add_cancel, State.read_push, if_pos rfl]

theorem State.pulled_push_sp (s : State) (v : Byte) : (s.push v).pulled.sp = s.sp := by
  rw [State.pulled_sp, State.push_sp, BitVec.sub_add_cancel]

theorem stackAddress_ne_pred (sp : Byte) : stackAddress sp ≠ stackAddress (sp - 1) := by
  rw [ne_eq, stackAddress_eq_iff]
  bv_omega

theorem State.read_push16_high (s : State) (w : Word) : (s.push16 w).read (stackAddress s.sp) = hiByte w := by
  rw [State.read_push16, if_neg (stackAddress_ne_pred s.sp), if_pos rfl]

theorem State.read_push16_low (s : State) (w : Word) : (s.push16 w).read (stackAddress (s.sp - 1)) = loByte w := by
  rw [State.read_push16, if_pos rfl]

theorem State.loByte_pullWord (s : State) : loByte s.pullWord = s.read (stackAddress (s.sp + 1)) :=
  loByte_wordOf _ _

theorem State.hiByte_pullWord (s : State) : hiByte s.pullWord = s.read (stackAddress (s.sp + 2)) := by
  rw [State.pullWord, hiByte_wordOf, State.pullByte, State.read_pulled, State.pulled_sp, BitVec.add_assoc]
  rfl

/-- `Pull16` after `Push16`: the low byte was pushed last and is pulled first (R45). -/
@[simp] theorem State.pullWord_push16 (s : State) (w : Word) : (s.push16 w).pullWord = w := by
  have low : (s.push16 w).pullByte = loByte w := State.pullByte_push _ _
  have high : (s.push16 w).pulled.pullByte = hiByte w := by
    rw [State.pullByte, State.read_pulled, State.pulled_sp, State.push16_sp, BitVec.sub_add_cancel,
      BitVec.sub_add_cancel, State.read_push16_high]
  rw [State.pullWord, low, high, wordOf_lo_hi]

theorem State.pulled_pulled_push16_sp (s : State) (w : Word) : (s.push16 w).pulled.pulled.sp = s.sp := by
  rw [State.pulled_sp, State.pulled_sp, State.push16_sp, BitVec.sub_add_cancel, BitVec.sub_add_cancel]

/-- Settles O24: the stack address, `Push`, `Pull`, their round trip, and the same for words. -/
theorem pushAndPull : Obligations.PushAndPull := by
  intro s v w
  have written : (s.push v).read (stackAddress s.sp) = v := by rw [State.read_push, if_pos rfl]
  have down : (s.push v).sp.toNat = (s.sp.toNat + 255) % 256 := by
    rw [State.push_sp]
    bv_omega
  have up : s.pulled.sp.toNat = (s.sp.toNat + 1) % 256 := by
    rw [State.pulled_sp, BitVec.toNat_add]
    rfl
  exact ⟨⟨stackAddress_toNat s.sp, stackAddress_onStackPage s.sp⟩, ⟨written, s.push_sameMemBut v, down⟩,
    ⟨rfl, up, s.read_pulled⟩, ⟨s.pullByte_push v, s.pulled_push_sp v⟩, s.read_push16_high w, s.read_push16_low w,
    s.loByte_pullWord, s.hiByte_pullWord, s.pullWord_push16 w, s.pulled_pulled_push16_sp w⟩

/-! ### A store into the instruction stream (20_memory R49; 70 R172) -/

/-- STA on the store: A at the effective address, every other byte as before (41 R86). -/
theorem read_of_exec_sta {dst : MemOperand} (h : exec (.sta dst) s = .next t) (a : Word) :
    t.read a = if a = (resolve dst s).ea then s.a else s.read a := by
  cases h
  exact State.read_write (s.fetched dst.mode) _ a s.a

/-- An operand byte the opcode's mode has is the memory byte at its place (30_encoding R53, R78). -/
theorem operandByte_of_le {k : Nat} (hk : k ≤ (descriptor (s.read s.pc)).operandCount) :
    operandByte s k = s.read (s.pc + BitVec.ofNat 16 k) :=
  if_pos hk

/-- Settles O58: the fetch reads memory itself, so it sees A where STA put it; the opcode before an overwritten operand
byte stands at another address and is the old one. -/
theorem storeIntoTheInstructionStreamIsFetched : Obligations.StoreIntoTheInstructionStreamIsFetched := by
  intro dst s t h
  refine ⟨fun hea => ?_, fun hea hk => ?_⟩
  · have opcode : t.read t.pc = s.a := by rw [read_of_exec_sta h, if_pos hea.symm]
    rw [fetchInstr, opcode]
  · have opcode : t.read t.pc = s.read t.pc := by
      rw [read_of_exec_sta h, if_neg (by rw [hea]; bv_omega)]
    have operand : operandByte t 1 = s.a := by
      rw [operandByte_of_le (by rwa [opcode]), read_of_exec_sta h]
      exact if_pos hea.symm
    rw [fetchInstr, opcode, operand]

end Sys2Proof.Machine
end

section
/-! PROOFS. The family 30_encoding: the decoder and the encoder undo each other, the unassigned opcodes, Steps at and
between boundaries, and the addresses and cycles of the operands. -/

namespace Sys2Proof

variable {i j : Instr} {t : InstrType} {m : Mode} {op : Byte}

/-! ### The forms of the opcodes (30_encoding R69, R70)

The decode table is read through `opcodeForm`: an instruction carries an opcode exactly when their forms agree. -/

/-- The type and mode the table gives an opcode, in the terms of `Instr.form`. -/
def opcodeForm (op : Byte) : Form :=
  match descriptor op with
  | .assigned m t _ => .assigned t m
  | .unassigned => .unassigned op

theorem opcodeForm_of_assigned {base : Nat} (h : descriptor op = .assigned m t base) :
    opcodeForm op = .assigned t m := by
  simp [opcodeForm, h]

theorem opcodeForm_of_unassigned (h : descriptor op = .unassigned) : opcodeForm op = .unassigned op := by
  simp [opcodeForm, h]

/-- A row of the table stands in a mode of its type's rule, and that rule's "Encoding" line gives its opcode. -/
theorem lookup_of_descriptor {base : Nat} (h : descriptor op = .assigned m t base) :
    m ∈ allowedModes t ∧ (encodings t).lookup m = some op := by
  simpa [h] using descriptor_encodings op

/-- The "Encoding" lines name only opcodes whose row has that type and mode. -/
theorem opcodeForm_of_mem_encodings (t : InstrType) : ∀ p ∈ encodings t, opcodeForm p.2 = .assigned t p.1 := by
  cases t <;> decide

theorem descriptor_eq_unassigned_iff (op : Byte) : descriptor op = .unassigned ↔ op ∈ unassignedOpcodes := by
  revert op; decide +kernel

theorem eq_unassigned_of_form (h : i.form = .unassigned op) : i = .unassigned op := by
  cases i <;> cases h
  rfl

/-- The opcode the encoder chooses has the instruction's own form in the table. -/
theorem opcodeForm_of_opcodeOf (h : opcodeOf i = some op) : opcodeForm op = i.form := by
  cases hf : i.form with
  | assigned t m =>
    simp only [opcodeOf, hf] at h
    obtain ⟨l₁, l₂, row, -⟩ := List.lookup_eq_some_iff.mp h
    exact opcodeForm_of_mem_encodings t (m, op) (by simp [row])
  | unassigned op' =>
    simp only [opcodeOf, hf, Option.ite_none_right_eq_some, Option.some.injEq, List.contains_iff_mem] at h
    obtain ⟨listed, rfl⟩ := h
    exact opcodeForm_of_unassigned ((descriptor_eq_unassigned_iff op').mpr listed)

/-! ### Operand bytes (30_encoding R51, R53) -/

theorem operandCount_le_two (m : Mode) : operandCount m ≤ 2 := by
  cases m <;> decide

theorem Descriptor.operandCount_le_two (d : Descriptor) : d.operandCount ≤ 2 := by
  cases d with
  | assigned m t base => exact Sys2Proof.operandCount_le_two m
  | unassigned => exact Nat.zero_le 2

section Reassembly

variable (rest : List Byte)

theorem memOperand_bytes (o : MemOperand) :
    memOperand o.mode ((o.bytes ++ rest).getD 0 0) ((o.bytes ++ rest).getD 1 0) = some o := by
  cases o <;> simp [memOperand, MemOperand.mode, MemOperand.bytes]

theorem readOperand_bytes (o : ReadOperand) :
    readOperand o.mode ((o.bytes ++ rest).getD 0 0) ((o.bytes ++ rest).getD 1 0) = some o := by
  cases o with
  | immediate v => rfl
  | memory o =>
    have ne : o.mode ≠ .immediate := by cases o <;> nofun
    simp only [readOperand, ReadOperand.mode, ReadOperand.bytes, if_neg ne, memOperand_bytes, Option.map_some]

theorem rmwOperand_bytes (o : RmwOperand) :
    rmwOperand o.toMem.mode ((o.toMem.bytes ++ rest).getD 0 0) ((o.toMem.bytes ++ rest).getD 1 0) = some o := by
  cases o <;> simp [rmwOperand, RmwOperand.toMem, MemOperand.mode, MemOperand.bytes]

theorem shiftOperand_bytes (o : ShiftOperand) :
    shiftOperand o.mode ((o.bytes ++ rest).getD 0 0) ((o.bytes ++ rest).getD 1 0) = some o := by
  cases o with
  | accumulator => rfl
  | memory o =>
    have ne : o.toMem.mode ≠ .accumulator := by cases o <;> nofun
    simp only [shiftOperand, ShiftOperand.mode, ShiftOperand.bytes, if_neg ne, rmwOperand_bytes, Option.map_some]

theorem jumpOperand_bytes (o : JumpOperand) :
    jumpOperand o.mode ((o.bytes ++ rest).getD 0 0) ((o.bytes ++ rest).getD 1 0) = some o := by
  cases o <;> simp [jumpOperand, JumpOperand.mode, JumpOperand.bytes]

/-- An instruction is assembled again from its type, its mode and its own operand bytes. -/
theorem assemble_operandBytes (hf : i.form = .assigned t m) :
    assemble t m ((operandBytes i ++ rest).getD 0 0) ((operandBytes i ++ rest).getD 1 0) = some i := by
  cases i with
  | lda o | ldx o | ldy o | adc o | sbc o | and o | ora o | eor o | cmp o | cpx o | cpy o =>
    cases hf; exact congrArg (Option.map _) (readOperand_bytes rest o)
  | sta o | stx o | sty o | bit o => cases hf; exact congrArg (Option.map _) (memOperand_bytes rest o)
  | inc o | dec o => cases hf; exact congrArg (Option.map _) (rmwOperand_bytes rest o)
  | asl o | lsr o | rol o | ror o => cases hf; exact congrArg (Option.map _) (shiftOperand_bytes rest o)
  | jmp o => cases hf; exact congrArg (Option.map _) (jumpOperand_bytes rest o)
  | jsr w => cases hf; exact congrArg (fun w => some (Instr.jsr w)) (wordOf_lo_hi w)
  | tax | tay | txa | tya | tsx | txs | pha | php | pla | plp | inx | iny | dex | dey | rts | clc | cld | cli | clv
  | sec | sed | sei | nop | brk | rti => cases hf; rfl
  | bcc d | bcs d | beq d | bmi d | bne d | bpl d | bvc d | bvs d => cases hf; rfl
  | unassigned op => cases hf

/-- Decoding an opcode of the instruction's form, with its operand bytes behind it, gives the instruction. -/
theorem decodeOpcode_operandBytes (h : opcodeForm op = i.form) :
    decodeOpcode op ((operandBytes i ++ rest).getD 0 0) ((operandBytes i ++ rest).getD 1 0) = i := by
  cases hd : descriptor op with
  | assigned m t base =>
    rw [opcodeForm_of_assigned hd] at h
    simp only [decodeOpcode, hd, assemble_operandBytes rest h.symm, Option.getD_some]
  | unassigned =>
    rw [opcodeForm_of_unassigned hd] at h
    simp only [decodeOpcode, hd, eq_unassigned_of_form h.symm]

end Reassembly

/-! ### What the decoder reads (30_encoding R51, R53, R70) -/

/-- An opcode and its operand bytes, as many as its row asks for, make a well-formed instruction of them. -/
theorem decodeOpcode_spec (op b1 b2 : Byte) :
    (decodeOpcode op b1 b2).WellFormed ∧ opcodeOf (decodeOpcode op b1 b2) = some op ∧
      operandBytes (decodeOpcode op b1 b2) = [b1, b2].take (descriptor op).operandCount := by
  cases hd : descriptor op with
  | assigned m t base =>
    obtain ⟨allowed, look⟩ := lookup_of_descriptor hd
    obtain ⟨i, hi⟩ := assemble_exists b1 b2 allowed
    obtain ⟨form, bytes⟩ := assemble_form allowed hi
    have dec : decodeOpcode op b1 b2 = i := by simp only [decodeOpcode, hd, hi, Option.getD_some]
    rw [dec]
    exact ⟨by simpa [Instr.WellFormed, Instr.wellFormed, form] using allowed, by simp only [opcodeOf, form, look], bytes⟩
  | unassigned =>
    have listed := (descriptor_eq_unassigned_iff op).mp hd
    have dec : decodeOpcode op b1 b2 = .unassigned op := by simp only [decodeOpcode, hd]
    rw [dec]
    exact ⟨by simpa [Instr.WellFormed, Instr.wellFormed, Instr.form] using listed,
      by simpa [opcodeOf, Instr.form] using listed, rfl⟩

theorem decodeOpcode_form (op b1 b2 : Byte) : (decodeOpcode op b1 b2).form = opcodeForm op :=
  (opcodeForm_of_opcodeOf (decodeOpcode_spec op b1 b2).2.1).symm

/-- An instruction has as many operand bytes as the row of its opcode asks for. -/
theorem operandBytes_length (h : opcodeForm op = i.form) :
    (operandBytes i).length = (descriptor op).operandCount := by
  have back := decodeOpcode_operandBytes [] h
  obtain ⟨-, -, bytes⟩ := decodeOpcode_spec op ((operandBytes i ++ []).getD 0 0) ((operandBytes i ++ []).getD 1 0)
  rw [back] at bytes
  rw [bytes, List.length_take]
  exact min_eq_left (descriptor op).operandCount_le_two

theorem instrLength_eq (h : opcodeForm op = i.form) : instrLength i = 1 + (descriptor op).operandCount := by
  rw [instrLength, ← h, opcodeForm]
  cases descriptor op <;> rfl

theorem decode_cons {tail : List Byte} (h : (descriptor op).operandCount ≤ tail.length) :
    decode (op :: tail) =
      .instr (decodeOpcode op (tail.getD 0 0) (tail.getD 1 0)) (tail.drop (descriptor op).operandCount) :=
  if_neg (not_lt.mpr h)

/-- The decoder reads an instruction only from an opcode byte with all its operand bytes behind it. -/
theorem decode_eq_instr {bs rest : List Byte} (h : decode bs = .instr i rest) :
    ∃ op tail, bs = op :: tail ∧ (descriptor op).operandCount ≤ tail.length ∧
      decodeOpcode op (tail.getD 0 0) (tail.getD 1 0) = i ∧ tail.drop (descriptor op).operandCount = rest := by
  cases bs with
  | nil => cases h
  | cons op tail =>
    by_cases short : tail.length < (descriptor op).operandCount
    · rw [decode, if_pos short] at h
      cases h
    · rw [decode_cons (not_lt.mp short)] at h
      cases h
      exact ⟨op, tail, rfl, not_lt.mp short, rfl, rfl⟩

/-- The first two bytes stand for the whole list where at most two are taken. -/
theorem take_first_two {tail : List Byte} {k : Nat} (hk : k ≤ 2) (h : k ≤ tail.length) :
    [tail.getD 0 0, tail.getD 1 0].take k = tail.take k := by
  match k, tail, hk, h with
  | 0, _, _, _ => rfl
  | 1, b :: tail, _, _ => rfl
  | 2, b :: c :: tail, _, _ => rfl

theorem encode_of_opcodeOf (h : opcodeOf i = some op) : encode i = some (op :: operandBytes i) := by
  rw [encode, h, Option.map_some]

/-- Decoding undoes encoding, and leaves whatever bytes follow. -/
theorem decode_encode (h : opcodeOf i = some op) (rest : List Byte) :
    decode (op :: operandBytes i ++ rest) = .instr i rest := by
  have form := opcodeForm_of_opcodeOf h
  have len := operandBytes_length form
  rw [List.cons_append, decode_cons (by simp [len]), decodeOpcode_operandBytes rest form, ← len, List.drop_left]

theorem opcodeOf_isSome (h : i.WellFormed) : (opcodeOf i).isSome := by
  cases hf : i.form with
  | assigned t m => simpa [opcodeOf, Instr.WellFormed, Instr.wellFormed, hf, Laws.Encoding.lookup_isSome] using h
  | unassigned op =>
    obtain rfl := eq_unassigned_of_form hf
    simpa [opcodeOf, Instr.WellFormed, Instr.wellFormed, Instr.form] using h

/-- Settles O1: a well-formed instruction has an opcode, whose row of the table has the instruction's own form; so the
decoder takes exactly its operand bytes and assembles the instruction from them again. -/
theorem decodeOfEncode : Obligations.DecodeOfEncode := by
  intro i wf
  obtain ⟨op, hop⟩ := Option.isSome_iff_exists.mp (opcodeOf_isSome wf)
  have form := opcodeForm_of_opcodeOf hop
  refine ⟨op :: operandBytes i, encode_of_opcodeOf hop, ?_, decode_encode hop⟩
  rw [List.length_cons, operandBytes_length form, instrLength_eq form, Nat.add_comm]

/-- Settles O2: `decodeOpcode_spec` gives the opcode and the operand bytes, which are the bytes that were read. -/
theorem encodeOfDecode : Obligations.EncodeOfDecode := by
  intro bs i rest h
  obtain ⟨op, tail, rfl, count, rfl, rfl⟩ := decode_eq_instr h
  obtain ⟨wf, hop, bytes⟩ := decodeOpcode_spec op (tail.getD 0 0) (tail.getD 1 0)
  refine ⟨wf, _, encode_of_opcodeOf hop, ?_⟩
  rw [bytes, take_first_two (descriptor op).operandCount_le_two count, List.cons_append, List.take_append_drop]

/-! ### The unassigned opcodes (30_encoding R71, R75) -/

theorem decodeOpcode_eq_unassigned_iff (op b1 b2 : Byte) :
    decodeOpcode op b1 b2 = .unassigned op ↔ descriptor op = .unassigned := by
  refine ⟨fun h => ?_, fun h => by simp only [decodeOpcode, h]⟩
  have form := decodeOpcode_form op b1 b2
  cases hd : descriptor op with
  | assigned m t base =>
    rw [h, opcodeForm_of_assigned hd] at form
    cases form
  | unassigned => rfl

/-- Settles O3: the list is compared with the table opcode by opcode, and the decoder follows the table. -/
theorem opcodesAssignedAndUnassigned : Obligations.OpcodesAssignedAndUnassigned :=
  ⟨rfl, by decide, rfl, fun op b1 b2 =>
    ⟨descriptor_eq_unassigned_iff op,
      (decodeOpcode_eq_unassigned_iff op b1 b2).trans (descriptor_eq_unassigned_iff op)⟩⟩

/-- Settles O4: the bytes are literals, one list for each mode, which the decoder runs on. -/
theorem syntaxTableBytesDecode : Obligations.SyntaxTableBytesDecode := by
  unfold Obligations.SyntaxTableBytesDecode
  decide

/-- Two well-formed instructions with the same opcode and the same operand bytes are one. -/
theorem eq_of_opcode_of_operandBytes (hi : opcodeOf i = some op) (hj : opcodeOf j = some op)
    (h : operandBytes i = operandBytes j) : i = j := by
  have di := decode_encode hi []
  rw [h, decode_encode hj []] at di
  cases di
  rfl

/-- The decoder does not look past the operand bytes its opcode has (R53). -/
theorem decodeOpcode_congr {b1 b2 c1 c2 : Byte}
    (h : [b1, b2].take (descriptor op).operandCount = [c1, c2].take (descriptor op).operandCount) :
    decodeOpcode op b1 b2 = decodeOpcode op c1 c2 := by
  obtain ⟨-, opb, bytesb⟩ := decodeOpcode_spec op b1 b2
  obtain ⟨-, opc, bytesc⟩ := decodeOpcode_spec op c1 c2
  exact eq_of_opcode_of_operandBytes opb opc (by rw [bytesb, bytesc, h])

end Sys2Proof

namespace Sys2Proof.Machine

variable {i : Instr} {s : State}

/-! ### The Steps (30_encoding R76 to R81) -/

/-- The fetch reads the operand bytes the opcode has, and the others do not matter (R53, R78). -/
theorem fetchInstr_eq (s : State) :
    fetchInstr s = decodeOpcode (s.read s.pc) (s.read (s.pc + 1)) (s.read (s.pc + 2)) := by
  refine decodeOpcode_congr ?_
  have two := (descriptor (s.read s.pc)).operandCount_le_two
  unfold operandByte
  interval_cases (descriptor (s.read s.pc)).operandCount <;> rfl

theorem step_of_ready (h : s.Ready) : step s = exec (fetchInstr s) s := by
  obtain ⟨debt, event⟩ := h
  simp [step, debt, event]

/-- Settles O5: three bytes are always enough, so `decode` and the fetch read the same instruction. -/
theorem stepRunsTheDecodedInstruction : Obligations.StepRunsTheDecodedInstruction := by
  intro s i rest ready h _
  obtain ⟨op, tail, bytes, -, rfl, -⟩ := decode_eq_instr h
  cases bytes
  rw [step_of_ready ready, fetchInstr_eq]
  rfl

theorem step_of_busy (h : 0 < s.debt) : step s = .next s.tick := if_pos h

/-- Settles O6: a Busy Step is `tick`. -/
theorem busyStepOnlyCountsDown : Obligations.BusyStepOnlyCountsDown := fun s h =>
  ⟨s.tick, step_of_busy h, Nat.sub_add_cancel h, ⟨rfl, rfl, rfl, rfl⟩, rfl, rfl, rfl, ⟨rfl, rfl, rfl, rfl, rfl⟩⟩

/-- Settles O15, by induction on the number of Steps: the first is Busy, and the debt it leaves covers the others. -/
theorem busyCallsLastAsLongAsTheDebt : Obligations.BusyCallsLastAsLongAsTheDebt := by
  intro t k
  induction k generalizing t with
  | zero => exact fun _ => rfl
  | succ k ih =>
    intro hk
    have busy : step t = .next t.tick := step_of_busy (by omega)
    rw [core_run_succ k busy, ih t.tick (Nat.le_sub_of_add_le hk)]
    simp only [State.tick, Nat.sub_sub, Nat.add_comm 1 k]

/-! ### Addresses (30_encoding section 2) -/

/-- Zero-page indexing wraps in the byte addition (R60). -/
theorem zext_add (b x : Byte) : zext (b + x) = BitVec.ofNat 16 ((b.toNat + x.toNat) % 256) := by
  rw [zext_eq, BitVec.toNat_add]

theorem State.read16ZP_eq (s : State) (z : Byte) :
    s.read16ZP z =
      wordOf (s.read (BitVec.ofNat 16 z.toNat)) (s.read (BitVec.ofNat 16 ((z.toNat + 1) % 256))) := by
  rw [← s.loByte_read16ZP, ← s.hiByte_read16ZP, wordOf_lo_hi]

/-- The pointer of Indirect,X: both its bytes lie in page 0 (R66). -/
theorem State.read16ZP_add (s : State) (b x : Byte) :
    s.read16ZP (b + x) =
      wordOf (s.read (BitVec.ofNat 16 ((b.toNat + x.toNat) % 256)))
        (s.read (BitVec.ofNat 16 ((b.toNat + x.toNat + 1) % 256))) := by
  rw [State.read16ZP_eq, BitVec.toNat_add, Nat.mod_add_mod]

/-- Settles O26: the indexed modes by `indexed_spec`, the zero-page ones and the pointers by the byte addition. -/
theorem resolverComputesTheAddresses : Obligations.ResolverComputesTheAddresses := by
  intro s b w
  refine ⟨⟨rfl, fun _ => rfl⟩, ?zp, ?zpX, ?zpY, rfl, indexed_spec w s.x, indexed_spec w s.y, ?indX, ?indY⟩
  case zp => exact congrArg atAddress (zext_eq b)
  case zpX => exact congrArg atAddress (zext_add b s.x)
  case zpY => exact congrArg atAddress (zext_add b s.y)
  case indX => exact congrArg atAddress (s.read16ZP_add b s.x)
  case indY =>
    rintro ptr rfl
    rw [← s.read16ZP_eq]
    exact indexed_spec (s.read16ZP b) s.y

/-! ### The cycles of an operand (30_encoding R74; 70 R177) -/

theorem pageCycle_indexed {o : MemOperand} {w : Word} {x : Byte} (h : resolve o s = indexed w x) :
    pageCycle o s = if (w.toNat + x.toNat) % 65536 / 256 ≠ w.toNat / 256 then 1 else 0 := by
  simp only [pageCycle, h, (indexed_spec w x).2]

/-- Settles O28: the modes with a fixed cost by definition, the indexed ones by their page cycle. -/
theorem readCostByMode : Obligations.ReadCostByMode := by
  intro s v b w
  refine ⟨rfl, rfl, rfl, rfl, rfl, rfl, ?absX, ?absY, ?indY⟩
  case absX | absY | indY =>
    rw [readCost, readMemCost, readMemBase, pageCycle_indexed rfl]
    split <;> rfl

/-! ### The costs by class against the table (30_encoding R74, R80; 70 R175 to R180) -/

/-- The base cycles of an instruction that reads its operand, by mode. -/
def readModeCost : Mode → Nat
  | .immediate => 2
  | .zeroPage => 3
  | .indirectX => 6
  | .indirectY => 5
  | _ => 4

/-- The cycles of STA, STX and STY by mode. -/
def storeModeCost : Mode → Nat
  | .zeroPage => 3
  | .zeroPageX | .zeroPageY | .absolute => 4
  | .absoluteX | .absoluteY => 5
  | _ => 6

/-- The cycles of a read-modify-write instruction by mode. -/
def rmwModeCost : Mode → Nat
  | .accumulator => 2
  | .zeroPage => 5
  | .absoluteX => 7
  | _ => 6

/-- The base cycles of an instruction by its type and mode, as the cost functions of Machine/Operands.lean give them:
a second reading of R74, compared with the table by `descriptor_cost`. -/
def classCost (t : InstrType) (m : Mode) : Nat :=
  match t with
  | .lda | .ldx | .ldy | .adc | .sbc | .and | .ora | .eor | .bit | .cmp | .cpx | .cpy => readModeCost m
  | .sta | .stx | .sty => storeModeCost m
  | .inc | .dec | .asl | .lsr | .rol | .ror => rmwModeCost m
  | .jmp => if m = .absolute then 3 else 5
  | .pha | .php => 3
  | .pla | .plp => 4
  | .jsr | .rts | .rti => 6
  | .brk => 7
  | _ => 2

/-- The instructions of the write class, which take no page-crossing cycle (70 R176). -/
def writeClass : List InstrType := [.sta, .stx, .sty, .asl, .lsr, .rol, .ror, .inc, .dec]

/-- The most cycles an instruction takes above its base: two for a branch, one for a page crossed by an instruction
that is not of the write class (70 R177, R178). -/
def extraCycles (t : InstrType) (m : Mode) : Nat :=
  if m = .relative then 2 else if m ∈ [Mode.absoluteX, .absoluteY, .indirectY] ∧ t ∉ writeClass then 1 else 0

/-- A row's base is the cost of its class, and lies with the extra cycles in 2 to 7. -/
def costAgrees : Descriptor → Bool
  | .assigned m t base => decide (base = classCost t m ∧ 2 ≤ base ∧ base + extraCycles t m ≤ 7)
  | .unassigned => true

theorem descriptor_costAgrees (op : Byte) : costAgrees (descriptor op) = true := by
  revert op; decide +kernel

theorem descriptor_cost {op : Byte} {m : Mode} {t : InstrType} {base : Nat} (h : descriptor op = .assigned m t base) :
    base = classCost t m ∧ 2 ≤ base ∧ base + extraCycles t m ≤ 7 := by
  simpa only [h, costAgrees, decide_eq_true_eq] using descriptor_costAgrees op

/-- The cost an instruction left in the debt lies between its base and its base with the extra cycles. -/
def CostWithin (u : State) (t : InstrType) (m : Mode) : Prop :=
  ∃ cost, u.debt = cost - 1 ∧ classCost t m ≤ cost ∧ cost ≤ classCost t m + extraCycles t m

theorem costWithin_rearm {u : State} {k : Nat} {ty : InstrType} {m : Mode} (low : classCost ty m ≤ k)
    (high : k ≤ classCost ty m + extraCycles ty m) : CostWithin (u.rearm k) ty m :=
  ⟨k, rfl, low, high⟩

/-- An instruction whose cost is fixed by its mode. -/
theorem costWithin_rearm_eq {u : State} {k : Nat} {ty : InstrType} {m : Mode} (h : k = classCost ty m) :
    CostWithin (u.rearm k) ty m :=
  costWithin_rearm h.ge (h.le.trans (Nat.le_add_right _ _))

/-- Only the indexed modes cross a page, and there the crossing is an extra cycle of an instruction that reads. -/
theorem pageCycle_le_extraCycles (o : MemOperand) {ty : InstrType} (h : ty ∉ writeClass) :
    pageCycle o s ≤ extraCycles ty o.mode := by
  have one : pageCycle o s ≤ 1 := by
    unfold pageCycle
    split <;> decide
  cases o with
  | zeroPage b | zeroPageX b | zeroPageY b | absolute b | indirectX b => exact Nat.zero_le _
  | absoluteX b | absoluteY b | indirectY b => simpa [extraCycles, MemOperand.mode, h] using one

theorem costWithin_readMem {u : State} (o : MemOperand) {ty : InstrType} (h : ty ∉ writeClass)
    (cls : classCost ty o.mode = readModeCost o.mode) : CostWithin (u.rearm (readMemCost o s)) ty o.mode := by
  have base : readMemBase o = classCost ty o.mode := by
    rw [cls]
    cases o <;> rfl
  rw [readMemCost, base]
  exact costWithin_rearm (Nat.le_add_right _ _) (Nat.add_le_add_left (pageCycle_le_extraCycles o h) _)

theorem costWithin_read {u : State} (o : ReadOperand) {ty : InstrType} (h : ty ∉ writeClass)
    (cls : classCost ty o.mode = readModeCost o.mode) : CostWithin (u.rearm (readCost o s)) ty o.mode := by
  cases o with
  | immediate v => exact costWithin_rearm_eq cls.symm
  | memory o => exact costWithin_readMem o h cls

theorem storeCost_eq (o : MemOperand) : storeCost o = storeModeCost o.mode := by cases o <;> rfl

theorem rmwCost_eq (o : RmwOperand) : rmwCost o = rmwModeCost o.toMem.mode := by cases o <;> rfl

theorem shiftCost_eq (o : ShiftOperand) : shiftCost o = rmwModeCost o.mode := by
  cases o with
  | accumulator => rfl
  | memory o => exact rmwCost_eq o

theorem costWithin_branch (taken : Bool) (d : Byte) {ty : InstrType} (cls : classCost ty .relative = 2) :
    CostWithin (branch taken d s) ty .relative := by
  obtain ⟨low, high⟩ := branchCost_bounds taken (branchTarget (s.fetched .relative).pc d).crossed
  exact costWithin_rearm (cls.trans_le low) (by rw [cls]; exact high)

/-- Every assigned instruction completes at the cost of its class, one group of meanings after the other. -/
theorem exec_costWithin {ty : InstrType} {m : Mode} (s : State) (hf : i.form = .assigned ty m) :
    ∃ t, exec i s = .next t ∧ CostWithin t ty m := by
  cases i with
  | lda o | ldx o | ldy o | adc o | sbc o | and o | ora o | eor o | cmp o | cpx o | cpy o =>
    cases hf; exact ⟨_, rfl, costWithin_read o (by decide) rfl⟩
  | bit o => cases hf; exact ⟨_, rfl, costWithin_readMem o (by decide) rfl⟩
  | sta o | stx o | sty o => cases hf; exact ⟨_, rfl, costWithin_rearm_eq (storeCost_eq o)⟩
  | inc o | dec o => cases hf; exact ⟨_, rfl, costWithin_rearm_eq (rmwCost_eq o)⟩
  | asl o | lsr o | rol o | ror o => cases hf; exact ⟨_, rfl, costWithin_rearm_eq (shiftCost_eq o)⟩
  | jmp o => cases hf; exact ⟨_, rfl, costWithin_rearm_eq (by cases o <;> rfl)⟩
  | bcc d | bcs d | beq d | bmi d | bne d | bpl d | bvc d | bvs d =>
    cases hf; exact ⟨_, rfl, costWithin_branch _ d rfl⟩
  | jsr w => cases hf; exact ⟨_, rfl, costWithin_rearm_eq rfl⟩
  | tax | tay | txa | tya | tsx | txs | pha | php | pla | plp | inx | iny | dex | dey | rts | clc | cld | cli | clv
  | sec | sed | sei | nop | brk | rti => cases hf; exact ⟨_, rfl, costWithin_rearm_eq rfl⟩
  | unassigned op => cases hf

/-- Settles O27: the decoded instruction has the type and mode of its row, its class bounds its cost, and the table's
base is that of the class. -/
theorem assignedOpcodesCompleteAtTheTablesCost : Obligations.AssignedOpcodesCompleteAtTheTablesCost := by
  intro op b1 b2 m ty base s h
  obtain ⟨base_eq, two, seven⟩ := descriptor_cost h
  have form : (decodeOpcode op b1 b2).form = .assigned ty m :=
    (decodeOpcode_form op b1 b2).trans (opcodeForm_of_assigned h)
  obtain ⟨t, run, cost, debt, low, high⟩ := exec_costWithin s form
  rw [← base_eq] at low high
  have total : t.debt + 1 = cost := by omega
  rw [← total] at low high
  exact ⟨t, run, low, two.trans low, high.trans seven, high⟩

end Sys2Proof.Machine
end

section
/-! PROOFS. The family 41_load_store_transfer: loads, stores, and the transfers between registers. -/

namespace Sys2Proof.Machine

variable {s t u : State}

/-- A meaning that re-arms the debt with its cost advances by the length of its mode (30_encoding R78, R80). -/
theorem advances_rearm {m : Mode} {cost : Nat} (hpc : u.pc = (s.fetched m).pc) (hc : 0 < cost) :
    Advances s (u.rearm cost) (modeLength m) cost :=
  advances_of hpc rfl hc

/-! ### Loads (R83 to R85) -/

theorem readCost_pos (src : ReadOperand) (s : State) : 0 < readCost src s :=
  Nat.zero_lt_of_lt (readCost_bounds s src).1

/-- Settles O29: the operand is read before the register is written, and the three meanings differ only in the
register. -/
theorem loadsPutTheOperandInTheRegister : Obligations.LoadsPutTheOperandInTheRegister := by
  intro src s v hv
  obtain rfl : v = operandValue src s := hv
  have nz := setsNZ_setNZ s.flags (operandValue src s)
  refine ⟨?lda, ?ldx, ?ldy⟩
  all_goals
    exact ⟨_, rfl, rfl, nz, rfl, rfl, rfl, fun _ => rfl, ⟨rfl, rfl, rfl, rfl, rfl⟩,
      advances_rearm rfl (readCost_pos src s)⟩

/-! ### Stores (R86 to R88) -/

theorem storeCost_pos (dst : MemOperand) : 0 < storeCost dst :=
  Nat.zero_lt_of_lt (storeCost_bounds dst).1

/-- What STA, STX and STY have in common, whatever the byte `v` they store. -/
theorem store_spec {dst : MemOperand} {v : Byte}
    (h : t = ((s.fetched dst.mode).write (resolve dst s).ea v).rearm (storeCost dst)) :
    t.read (resolve dst s).ea = v ∧ SameMemBut s t (resolve dst s).ea ∧ t.flags = s.flags ∧ SameRegs s t ∧
      SameControl s t ∧ Advances s t (modeLength dst.mode) (storeCost dst) := by
  subst h
  have written := State.read_write_same (s.fetched dst.mode) (resolve dst s).ea v
  have others : SameMemBut s ((s.fetched dst.mode).write (resolve dst s).ea v) (resolve dst s).ea :=
    fun _ => State.read_write_ne (s.fetched dst.mode) v
  exact ⟨written, others, rfl, ⟨rfl, rfl, rfl, rfl⟩, ⟨rfl, rfl, rfl, rfl, rfl⟩, advances_rearm rfl (storeCost_pos dst)⟩

/-- Settles O30: the cost written out by mode is `storeCost`, and each instruction stores its register. -/
theorem storesWriteTheRegisterAtTheAddress : Obligations.StoresWriteTheRegisterAtTheAddress := by
  intro dst s cost hcost
  obtain rfl : cost = storeCost dst := hcost
  exact ⟨⟨_, rfl, store_spec rfl⟩, ⟨_, rfl, store_spec rfl⟩, ⟨_, rfl, store_spec rfl⟩⟩

/-! ### Transfers (R89 to R94) -/

/-- An instruction without operand bytes is decoded from its opcode alone (30_encoding R51, R52). -/
theorem decode_of_operandBytes_nil {i : Instr} {op : Byte} (hop : opcodeOf i = some op)
    (hb : operandBytes i = []) (rest : List Byte) : decode (op :: rest) = .instr i rest := by
  simpa [hb] using decode_encode hop rest

/-- Settles O31: the opcodes are those of the encoder; the five transfers that set N and Z have one shape, TXS has its
own. -/
theorem transfersCopyTheRegister : Obligations.TransfersCopyTheRegister := by
  intro s rest
  refine ⟨⟨decode_of_operandBytes_nil rfl rfl rest, ?tax⟩, ⟨decode_of_operandBytes_nil rfl rfl rest, ?tay⟩,
    ⟨decode_of_operandBytes_nil rfl rfl rest, ?txa⟩, ⟨decode_of_operandBytes_nil rfl rfl rest, ?tya⟩,
    ⟨decode_of_operandBytes_nil rfl rfl rest, ?tsx⟩, ⟨decode_of_operandBytes_nil rfl rfl rest, ?txs⟩⟩
  case txs =>
    exact ⟨_, rfl, rfl, rfl, ⟨rfl, rfl, rfl⟩, fun _ => rfl, ⟨rfl, rfl, rfl, rfl, rfl⟩,
      advances_rearm (m := .implied) rfl Nat.zero_lt_two⟩
  all_goals
    exact ⟨_, rfl, rfl, setsNZ_setNZ s.flags _, rfl, rfl, rfl, fun _ => rfl, ⟨rfl, rfl, rfl, rfl, rfl⟩,
      advances_rearm (m := .implied) rfl Nat.zero_lt_two⟩

end Sys2Proof.Machine
end

section
/-! PROOFS. The family 42_stack: the pushes, the pulls, and their round trips. -/

namespace Sys2Proof.Machine

variable {s t : State} {v : Byte}

/-! ### The status PHP pushes (R96) -/

/-- Bit 5 is set in every packed status, and bit 4 is B (10_state R20). -/
theorem Flags.pack_or_bits45 (f : Flags) : f.pack ||| 0x30 = { f with b := true }.pack := by
  refine BitVec.eq_of_getLsbD_eq fun j hj => ?_
  rw [BitVec.getLsbD_or, Flags.getLsbD_pack, Flags.getLsbD_pack]
  interval_cases j <;> simp

/-! ### A push and a pull (R95 to R98) -/

/-- What PHA and PHP have in common, whatever the byte `v` they push. -/
theorem pushed_spec (h : t = ((s.fetched .implied).push v).rearm 3) :
    t.read (stackAddress s.sp) = v ∧ SameMemBut s t (stackAddress s.sp) ∧ t.sp = s.sp - 1 ∧ t.flags = s.flags ∧
      SameAXY s t ∧ SameControl s t ∧ Advances s t 1 3 := by
  subst h
  have written : (((s.fetched .implied).push v).rearm 3).read (stackAddress s.sp) = v :=
    State.read_write_same (s.fetched .implied) (stackAddress s.sp) v
  have others : SameMemBut s (((s.fetched .implied).push v).rearm 3) (stackAddress s.sp) :=
    (s.fetched .implied).push_sameMemBut v
  exact ⟨written, others, rfl, rfl, ⟨rfl, rfl, rfl⟩, ⟨rfl, rfl, rfl, rfl, rfl⟩,
    advances_rearm (m := .implied) rfl (by decide)⟩

/-- A pull right after PHA or PHP finds the byte pushed, and brings SP back (20_memory R44). -/
theorem pullByte_of_pushed (h : t = ((s.fetched .implied).push v).rearm 3) :
    t.pullByte = v ∧ t.pulled.sp = s.sp := by
  subst h
  exact ⟨(s.fetched .implied).pullByte_push v, (s.fetched .implied).pulled_push_sp v⟩

theorem exec_pla_spec (h : exec .pla s = .next t) :
    t.a = s.pullByte ∧ SetsNZ s.flags t.flags s.pullByte ∧ t.x = s.x ∧ t.y = s.y ∧ t.sp = s.pulled.sp ∧ SameMem s t ∧
      SameControl s t ∧ Advances s t 1 4 := by
  have control : SameControl s t := exec_sameControl h
  cases h
  exact ⟨rfl, setsNZ_setNZ s.flags s.pullByte, rfl, rfl, rfl, fun _ => rfl, control,
    advances_rearm (m := .implied) rfl (by decide)⟩

theorem exec_plp_spec (h : exec .plp s = .next t) :
    t.flags = Flags.unpack s.pullByte ∧ t.sp = s.pulled.sp ∧ SameAXY s t ∧ SameMem s t ∧ SameControl s t ∧
      Advances s t 1 4 := by
  have control : SameControl s t := exec_sameControl h
  cases h
  exact ⟨rfl, rfl, ⟨rfl, rfl, rfl⟩, fun _ => rfl, control, advances_rearm (m := .implied) rfl (by decide)⟩

/-- Settles O34: the pull finds the byte pushed, which for PHP is the packed status with B set. -/
theorem pushThenPullRestores : Obligations.PushThenPullRestores := by
  intro s t u
  refine ⟨fun push pull => ?accumulator, fun push pull => ?status⟩
  case accumulator =>
    have pushed : t = ((s.fetched .implied).push s.a).rearm 3 := (Host.Outcome.next.inj push).symm
    obtain ⟨byte, restored⟩ := pullByte_of_pushed pushed
    obtain ⟨-, -, -, flags, -⟩ := pushed_spec pushed
    obtain ⟨acc, nz, -, -, sp, -⟩ := exec_pla_spec pull
    rw [byte, flags] at nz
    exact ⟨acc.trans byte, sp.trans restored, nz⟩
  case status =>
    have pushed : t = ((s.fetched .implied).push (s.status ||| 0x30)).rearm 3 := (Host.Outcome.next.inj push).symm
    obtain ⟨byte, restored⟩ := pullByte_of_pushed pushed
    obtain ⟨flags, sp, -⟩ := exec_plp_spec pull
    rw [byte, State.status, Flags.pack_or_bits45, Flags.unpack_pack] at flags
    exact ⟨flags, sp.trans restored⟩

/-- Settles O32: both pushes have one shape, and the status PHP pushes is the packed one with B set. -/
theorem pushInstructionsEffect : Obligations.PushInstructionsEffect := by
  intro s rest
  obtain ⟨written, frame⟩ := pushed_spec (s := s) (v := s.status ||| 0x30) rfl
  exact ⟨⟨decode_of_operandBytes_nil rfl rfl rest, _, rfl, pushed_spec rfl⟩,
    ⟨decode_of_operandBytes_nil rfl rfl rest, _, rfl, written, written.trans s.flags.pack_or_bits45, frame⟩⟩

/-- Settles O33: PLP puts each bit of the pulled byte into its flag; bit 5 of the packed status is hard-wired. -/
theorem pullInstructionsEffect : Obligations.PullInstructionsEffect := by
  rintro s rest v rfl
  obtain ⟨-, sp, frame⟩ := exec_plp_spec (s := s) rfl
  obtain ⟨-, -, -, -, -, bit5, -⟩ := (Flags.unpack s.pullByte).bits_pack
  exact ⟨⟨decode_of_operandBytes_nil rfl rfl rest, _, rfl, exec_pla_spec rfl⟩,
    ⟨decode_of_operandBytes_nil rfl rfl rest, _, rfl, sp, rfl, rfl, rfl, rfl, rfl, rfl, rfl, bit5, frame⟩⟩

end Sys2Proof.Machine
end

section
/-! PROOFS. The family 43_alu_arith_logic: the ALU functions in whole numbers, then the meanings made of them. -/

namespace Sys2Proof.Machine

variable {s t : State}

/-! ### Bytes in whole numbers -/

theorem carryIn_eq (c : Bool) : carryIn c = c.toNat := by cases c <;> rfl

theorem toNat_eq_ite {b : Bool} {p : Prop} [Decidable p] (h : b = true ↔ p) : b.toNat = if p then 1 else 0 := by
  cases b <;> simp_all

theorem toInt_byte (v : Byte) : v.toInt = if 128 ≤ v.toNat then (v.toNat : Int) - 256 else v.toNat := by
  rw [BitVec.toInt_eq_toNat_cond]
  split <;> split <;> omega

theorem toInt_not_byte (v : Byte) : (~~~v).toInt = -v.toInt - 1 := by
  have := v.isLt
  simp only [toInt_byte, BitVec.toNat_not]
  split <;> split <;> omega

theorem bit7_mask (v : Byte) : (v &&& 0x80 != 0) = v.getLsbD 7 := by
  rw [show (0x80 : Byte) = BitVec.twoPow 8 7 from rfl, BitVec.and_twoPow]
  cases v.getLsbD 7 <;> rfl

/-- Bit 7 of the exclusive or tells whether two bytes differ in sign. -/
theorem bit7_xor (v w : Byte) : (v ^^^ w).getLsbD 7 = true ↔ ¬(0x80 ≤ v.toNat ↔ 0x80 ≤ w.toNat) := by
  rw [BitVec.getLsbD_xor, Bool.xor_iff_ne, ne_eq, Bool.eq_iff_iff, msb_iff, msb_iff]

theorem lowDigit_toNat (v : Byte) : (v &&& 0x0F).toNat = v.toNat % 16 := by
  rw [BitVec.toNat_and]
  exact Nat.and_two_pow_sub_one_eq_mod v.toNat 4

theorem highDigit_toNat (v : Byte) : (v &&& 0xF0).toNat = v.toNat / 16 * 16 := by
  have := v.isLt
  rw [show (0xF0 : Byte) = BitVec.allOnes 8 <<< 4 from rfl, ← BitVec.shiftLeft_ushiftRight, BitVec.toNat_shiftLeft,
    BitVec.toNat_ushiftRight, Nat.shiftLeft_eq, Nat.shiftRight_eq_div_pow]
  omega

theorem highDigit_toInt (v : Byte) :
    (v &&& 0xF0).toInt = if 128 ≤ v.toNat then (v.toNat / 16 * 16 : Int) - 256 else v.toNat / 16 * 16 := by
  rw [toInt_byte, highDigit_toNat]
  split <;> split <;> omega

/-! ### Binary addition and subtraction (R101, R102) -/

section Binary

variable (a m : Byte) (c : Bool)

theorem addBin_res : (addBin a m c).res.toNat = (a.toNat + m.toNat + c.toNat) % 256 := by
  simp only [addBin, carryIn_eq, BitVec.toNat_ofNat, Nat.reducePow]

theorem addBin_carry : (addBin a m c).c = true ↔ 255 < a.toNat + m.toNat + c.toNat := by
  simp only [addBin, carryIn_eq, decide_eq_true_eq, gt_iff_lt]

theorem addBin_zero : (addBin a m c).z = true ↔ (addBin a m c).res = 0 := beq_iff_eq

theorem addBin_negative : (addBin a m c).n = true ↔ 0x80 ≤ (addBin a m c).res.toNat := msb_iff _

/-- V says that the signed sum does not fit a signed byte: both operands differ in sign from the result (R101). -/
theorem addBin_overflow :
    (addBin a m c).v = true ↔ a.toInt + m.toInt + c.toNat < -128 ∨ 127 < a.toInt + m.toInt + c.toNat := by
  have overflow : (addBin a m c).v = ((a ^^^ (addBin a m c).res) &&& (m ^^^ (addBin a m c).res)).getLsbD 7 :=
    bit7_mask _
  have sum := addBin_res a m c
  have carry := c.toNat_le
  have := a.isLt
  have := m.isLt
  rw [overflow, BitVec.getLsbD_and, Bool.and_eq_true, bit7_xor, bit7_xor, toInt_byte, toInt_byte]
  split <;> split <;> omega

theorem subBin_carry : (subBin a m c).c = true ↔ (0 : Int) ≤ a.toNat - m.toNat - (1 - c.toNat) := by
  have := m.isLt
  rw [subBin, addBin_carry, BitVec.toNat_not]
  omega

theorem subBin_res : ((subBin a m c).res.toNat : Int) = (a.toNat - m.toNat - (1 - c.toNat)) % 256 := by
  have := m.isLt
  rw [subBin, addBin_res, BitVec.toNat_not]
  omega

theorem subBin_overflow :
    (subBin a m c).v = true ↔
      a.toInt - m.toInt - (1 - c.toNat) < -128 ∨ 127 < a.toInt - m.toInt - (1 - c.toNat) := by
  rw [subBin, addBin_overflow, toInt_not_byte]
  omega

theorem subBin_zero : (subBin a m c).z = true ↔ ((a.toNat : Int) - m.toNat - (1 - c.toNat)) % 256 = 0 := by
  rw [← subBin_res, subBin, addBin_zero, ← BitVec.toNat_inj]
  exact Int.natCast_eq_zero.symm

theorem subBin_negative : (subBin a m c).n = true ↔ 128 ≤ ((a.toNat : Int) - m.toNat - (1 - c.toNat)) % 256 := by
  rw [← subBin_res, subBin, addBin_negative]
  omega

end Binary

/-! ### Decimal addition (R103) -/

section Decimal

variable (a m : Byte) (c : Bool)

theorem addDecLow_eq :
    addDecLow a m c =
      if 10 ≤ a.toNat % 16 + m.toNat % 16 + c.toNat then (a.toNat % 16 + m.toNat % 16 + c.toNat + 6) % 16 + 16
      else a.toNat % 16 + m.toNat % 16 + c.toNat := by
  simp only [addDecLow, lowDigit_toNat, carryIn_eq, ge_iff_le]

theorem addDecSum_eq : addDecSum a m c = a.toNat / 16 * 16 + m.toNat / 16 * 16 + addDecLow a m c := by
  simp only [addDecSum, highDigit_toNat]

theorem addDecSigned_eq :
    addDecSigned a m c =
      (if 128 ≤ a.toNat then (a.toNat / 16 * 16 : Int) - 256 else a.toNat / 16 * 16) +
        (if 128 ≤ m.toNat then (m.toNat / 16 * 16 : Int) - 256 else m.toNat / 16 * 16) + addDecLow a m c := by
  simp only [addDecSigned, highDigit_toInt]

/-- The sum of `AddDec` after the high-digit adjustment (R103). -/
def addDecAdjusted (a m : Byte) (c : Bool) : Nat :=
  if 160 ≤ addDecSum a m c then addDecSum a m c + 96 else addDecSum a m c

theorem addDec_res : (addDec a m c).res.toNat = addDecAdjusted a m c % 256 := BitVec.toNat_ofNat _ _

theorem addDec_carry : (addDec a m c).c = true ↔ 256 ≤ addDecAdjusted a m c := decide_eq_true_iff

theorem addDec_overflow :
    (addDec a m c).v = true ↔ addDecSigned a m c < -128 ∨ 127 < addDecSigned a m c := by
  simp only [addDec, Bool.or_eq_true, decide_eq_true_eq, gt_iff_lt]

theorem addDec_zero : (addDec a m c).z = true ↔ (a.toNat + m.toNat + c.toNat) % 256 = 0 := by
  simp only [addDec, carryIn_eq, beq_iff_eq, ← BitVec.toNat_inj, BitVec.toNat_ofNat]
  rfl

theorem addDec_negative : (addDec a m c).n = true ↔ addDecSum a m c / 128 % 2 = 1 := by
  simp only [addDec, Nat.testBit_eq_decide_div_mod_eq, decide_eq_true_eq, Nat.reducePow]

/-- On decimal digits each adjustment carries ten of its digit into the next one (R103). -/
theorem addDec_bcd (ha : IsBcd a) (hm : IsBcd m) :
    IsBcd (addDec a m c).res ∧ bcd (addDec a m c).res + 100 * (addDec a m c).c.toNat = bcd a + bcd m + c.toNat := by
  obtain ⟨aHigh, aLow⟩ := ha
  obtain ⟨mHigh, mLow⟩ := hm
  have carryOut := toNat_eq_ite (addDec_carry a m c)
  have carry := c.toNat_le
  simp only [IsBcd, bcd, carryOut, addDec_res, addDecAdjusted, addDecSum_eq, addDecLow_eq]
  split_ifs <;> omega

/-! ### Decimal subtraction (R104) -/

/-- The low digit of `SubDec`, with its borrow from the high digit as -16 (R104). -/
def subDecLow (a m : Byte) (c : Bool) : Int :=
  let al : Int := a.toNat % 16 - m.toNat % 16 + c.toNat - 1
  if al < 0 then (al - 6) % 16 - 16 else al

/-- The difference of `SubDec` before the high-digit adjustment (R104). -/
def subDecDiff (a m : Byte) (c : Bool) : Int := a.toNat / 16 * 16 - m.toNat / 16 * 16 + subDecLow a m c

theorem subDec_toNat :
    ((subDec a m c).toNat : Int) =
      (if subDecDiff a m c < 0 then subDecDiff a m c - 96 else subDecDiff a m c) % 256 := by
  simp only [subDec, lowDigit_toNat, highDigit_toNat, carryIn_eq, BitVec.toNat_ofInt]
  exact Int.toNat_of_nonneg (Int.emod_nonneg _ (by decide))

/-- On decimal digits each adjustment borrows ten of its digit from the next one (R104, R106). -/
theorem subDec_bcd (ha : IsBcd a) (hm : IsBcd m) :
    IsBcd (subDec a m c) ∧
      bcd (subDec a m c) + bcd m + 1 = bcd a + c.toNat + 100 * (1 - (subBin a m c).c.toNat) := by
  obtain ⟨aHigh, aLow⟩ := ha
  obtain ⟨mHigh, mLow⟩ := hm
  have res := subDec_toNat a m c
  have carryOut := toNat_eq_ite (subBin_carry a m c)
  have carry := c.toNat_le
  simp only [subDecDiff, subDecLow] at res
  simp only [IsBcd, bcd, carryOut]
  split_ifs at res ⊢ <;> omega

end Decimal

/-! ### The choice between binary and decimal (R105, R106) -/

section Choice

variable {enabled d : Bool} (a m : Byte) (c : Bool)

theorem aluAdc_binary (h : d = false ∨ enabled = false) : aluAdc enabled d a m c = addBin a m c := by
  obtain rfl | rfl := h <;> simp [aluAdc]

theorem aluAdc_decimal (hd : d = true) (he : enabled = true) : aluAdc enabled d a m c = addDec a m c := by
  simp [aluAdc, hd, he]

theorem aluSbc_binary (h : d = false ∨ enabled = false) : aluSbc enabled d a m c = subBin a m c := by
  obtain rfl | rfl := h <;> simp [aluSbc]

theorem aluSbc_decimal (hd : d = true) (he : enabled = true) : (aluSbc enabled d a m c).res = subDec a m c := by
  simp [aluSbc, hd, he]

/-- The flags of SBC are the binary ones in every mode (R106). -/
theorem arith_aluSbc (f : Flags) : f.arith (aluSbc enabled d a m c) = f.arith (subBin a m c) := by
  unfold aluSbc
  split <;> rfl

end Choice

/-! ### ADC and SBC (R110, R111) -/

/-- What ADC and SBC leave unchanged and what they cost, whatever the ALU answers. -/
theorem arithmetic_frame {src : ReadOperand} {r : AluResult} (h : t = arithmetic src r s) :
    SameIDB s.flags t.flags ∧ SameIndexSP s t ∧ SameMem s t ∧ SameControl s t ∧
      Advances s t (modeLength src.mode) (readCost src s) := by
  subst h
  exact ⟨⟨rfl, rfl, rfl⟩, ⟨rfl, rfl, rfl⟩, fun _ => rfl, ⟨rfl, rfl, rfl, rfl, rfl⟩,
    advances_rearm rfl (readCost_pos src s)⟩

theorem exec_adc_binary (src : ReadOperand) (h : s.flags.d = false ∨ s.decimalEnabled = false) :
    exec (.adc src) s = .next (arithmetic src (addBin s.a (operandValue src s) s.flags.c) s) := by
  rw [← aluAdc_binary _ _ _ h]
  rfl

theorem exec_adc_decimal (src : ReadOperand) (hd : s.flags.d = true) (he : s.decimalEnabled = true) :
    exec (.adc src) s = .next (arithmetic src (addDec s.a (operandValue src s) s.flags.c) s) := by
  rw [← aluAdc_decimal _ _ _ hd he]
  rfl

/-- The state after SBC: A from `AluSbc`, the flags from `SubBin` (R106, R111). -/
theorem exec_sbc (src : ReadOperand) (s : State) :
    ∃ t, exec (.sbc src) s = .next t ∧
      t.a = (aluSbc s.decimalEnabled s.flags.d s.a (operandValue src s) s.flags.c).res ∧
      t.flags = s.flags.arith (subBin s.a (operandValue src s) s.flags.c) ∧
      SameIDB s.flags t.flags ∧ SameIndexSP s t ∧ SameMem s t ∧ SameControl s t ∧
      Advances s t (modeLength src.mode) (readCost src s) :=
  ⟨_, rfl, rfl, arith_aluSbc _ _ _ _, arithmetic_frame rfl⟩

/-- Settles O35: the ALU adds in binary, and `AddBin` has a lemma for its result and each flag. -/
theorem adcBinary : Obligations.AdcBinary := by
  rintro src s sum signed binary rfl rfl
  exact ⟨_, exec_adc_binary src binary, addBin_res _ _ _, addBin_carry _ _ _, addBin_overflow _ _ _, addBin_zero _ _ _,
    addBin_negative _ _ _, arithmetic_frame rfl⟩

/-- Settles O36: the numbers of the formula are those `AddDec` computes, and each flag has its lemma. -/
theorem adcDecimal : Obligations.AdcDecimal := by
  rintro src s a m c al0 al sum adj signed hd he rfl rfl rfl rfl hal hsum hadj hsigned
  rw [← addDecLow_eq] at hal
  subst hal
  rw [← addDecSum_eq] at hsum
  rw [← addDecSigned_eq] at hsigned
  subst hsum hsigned
  obtain rfl : adj = addDecAdjusted s.a (operandValue src s) s.flags.c := hadj
  exact ⟨_, exec_adc_decimal src hd he, addDec_res _ _ _, addDec_carry _ _ _, addDec_overflow _ _ _, addDec_zero _ _ _,
    addDec_negative _ _ _, arithmetic_frame rfl⟩

/-- Settles O37 by `addDec_bcd`. -/
theorem adcDecimalAddsDecimalNumbers : Obligations.AdcDecimalAddsDecimalNumbers := by
  intro src s hd he ha hm
  exact ⟨_, exec_adc_decimal src hd he, addDec_bcd _ _ s.flags.c ha hm⟩

/-- Settles O38: the flags are those of `SubBin` in every mode, the result only in binary. -/
theorem sbcBinaryAndFlags : Obligations.SbcBinaryAndFlags := by
  rintro src s diff signed rfl rfl
  obtain ⟨t, run, acc, flags, frame⟩ := exec_sbc src s
  refine ⟨t, run, ?carry, ?overflow, ?zero, ?negative, fun binary => ?result, frame⟩
  case result => rw [acc, aluSbc_binary _ _ _ binary, subBin_res]
  all_goals rw [flags]
  case carry => exact subBin_carry _ _ _
  case overflow => exact subBin_overflow _ _ _
  case zero => exact subBin_zero _ _ _
  case negative => exact subBin_negative _ _ _

/-- Settles O39: the numbers of the formula are those of `subDecDiff`. -/
theorem sbcDecimal : Obligations.SbcDecimal := by
  rintro src s a m c al0 al diff hd he rfl rfl rfl rfl rfl hdiff
  obtain rfl : diff = subDecDiff s.a (operandValue src s) s.flags.c := hdiff
  obtain ⟨t, run, acc, -⟩ := exec_sbc src s
  exact ⟨t, run, by rw [acc, aluSbc_decimal _ _ _ hd he, subDec_toNat]⟩

/-- Settles O40 by `subDec_bcd`: the borrow is the binary one, since C is (R106). -/
theorem sbcDecimalSubtractsDecimalNumbers : Obligations.SbcDecimalSubtractsDecimalNumbers := by
  intro src s hd he ha hm
  obtain ⟨t, run, acc, flags, -⟩ := exec_sbc src s
  rw [aluSbc_decimal _ _ _ hd he] at acc
  refine ⟨t, run, ?_⟩
  rw [acc, flags]
  exact subDec_bcd _ _ s.flags.c ha hm

/-! ### Compares and BIT (R107, R115) -/

/-- What CMP, CPX and CPY have in common, whatever the register they compare. -/
theorem comparison_spec {src : ReadOperand} {reg m : Byte} (hm : m = operandValue src s)
    (h : t = comparison reg src s) :
    (t.flags.c = true ↔ m.toNat ≤ reg.toNat) ∧ (t.flags.z = true ↔ reg = m) ∧
      (t.flags.n = true ↔ 128 ≤ (reg.toNat + 256 - m.toNat) % 256) ∧ t.flags.v = s.flags.v ∧
      SameIDB s.flags t.flags ∧ SameRegs s t ∧ SameMem s t ∧ SameControl s t ∧
      Advances s t (modeLength src.mode) (readCost src s) := by
  subst hm h
  have difference : (reg - operandValue src s).toNat = (reg.toNat + 256 - (operandValue src s).toNat) % 256 := by
    rw [BitVec.toNat_sub]
    omega
  exact ⟨decide_eq_true_iff, beq_iff_eq, difference ▸ msb_iff _, rfl, ⟨rfl, rfl, rfl⟩, ⟨rfl, rfl, rfl, rfl⟩,
    fun _ => rfl, ⟨rfl, rfl, rfl, rfl, rfl⟩, advances_rearm rfl (readCost_pos src s)⟩

/-- Settles O43: the three compares differ only in the register. -/
theorem comparesSetFlagsOnly : Obligations.ComparesSetFlagsOnly := fun _ _ _ hm =>
  ⟨⟨_, rfl, comparison_spec hm rfl⟩, ⟨_, rfl, comparison_spec hm rfl⟩, ⟨_, rfl, comparison_spec hm rfl⟩⟩

/-- Settles O42: BIT writes the flags only, and reads memory at the cost of any reader. -/
theorem bitTestsTheMemoryByte : Obligations.BitTestsTheMemoryByte := by
  rintro src s m rfl
  exact ⟨_, rfl, beq_iff_eq, rfl, rfl, rfl, ⟨rfl, rfl, rfl⟩, ⟨rfl, rfl, rfl, rfl⟩, fun _ => rfl,
    ⟨rfl, rfl, rfl, rfl, rfl⟩, advances_rearm rfl (readCost_pos (.memory src) s)⟩

/-! ### AND, ORA and EOR (R108) -/

/-- What the three logic instructions have in common, whatever the byte they put in A. -/
theorem logic_frame {src : ReadOperand} {v : Byte} (h : t = logic src v s) :
    SetsNZ s.flags t.flags t.a ∧ SameIndexSP s t ∧ SameMem s t ∧ SameControl s t ∧
      Advances s t (modeLength src.mode) (readCost src s) := by
  subst h
  exact ⟨setsNZ_setNZ s.flags v, ⟨rfl, rfl, rfl⟩, fun _ => rfl, ⟨rfl, rfl, rfl, rfl, rfl⟩,
    advances_rearm rfl (readCost_pos src s)⟩

/-- Settles O41: the operations on bytes act on each bit. -/
theorem logicActsBitByBit : Obligations.LogicActsBitByBit := fun _ _ =>
  ⟨⟨_, rfl, fun _ => BitVec.getLsbD_and, logic_frame rfl⟩, ⟨_, rfl, fun _ => BitVec.getLsbD_or, logic_frame rfl⟩,
    ⟨_, rfl, fun _ => Bool.bne_eq_xor ▸ BitVec.getLsbD_xor, logic_frame rfl⟩⟩

/-! ### Increments and decrements (R109, R119 to R124) -/

theorem byte_add_one_toNat (v : Byte) : (v + 1).toNat = (v.toNat + 1) % 256 := BitVec.toNat_add v 1

theorem byte_sub_one_toNat (v : Byte) : (v - 1).toNat = (v.toNat + 255) % 256 := by
  rw [BitVec.toNat_sub, Nat.add_comm]
  rfl

theorem rmwCost_pos (dst : RmwOperand) : 0 < rmwCost dst :=
  Nat.zero_lt_of_lt (rmwCost_bounds dst).1

/-- What INC and DEC have in common, whatever the byte `v` they write back. -/
theorem writeBack_spec {dst : RmwOperand} {v : Byte} (h : t = writeBack dst v s) :
    t.read (resolve dst.toMem s).ea = v ∧ SameMemBut s t (resolve dst.toMem s).ea ∧ SetsNZ s.flags t.flags v ∧
      SameRegs s t ∧ SameControl s t ∧ Advances s t (modeLength dst.toMem.mode) (rmwCost dst) := by
  subst h
  have written : (writeBack dst v s).read (resolve dst.toMem s).ea = v := State.read_write_same (s.fetched _) _ v
  have others : SameMemBut s (writeBack dst v s) (resolve dst.toMem s).ea :=
    fun _ => State.read_write_ne (s.fetched _) v
  exact ⟨written, others, setsNZ_setNZ s.flags v, ⟨rfl, rfl, rfl, rfl⟩, ⟨rfl, rfl, rfl, rfl, rfl⟩,
    advances_rearm rfl (rmwCost_pos dst)⟩

/-- Settles O44: the cost written out by mode is `rmwCost`, and the byte read afterwards is the one written back. -/
theorem incDecMemory : Obligations.IncDecMemory := by
  rintro dst s ea cost rfl hcost
  obtain rfl : cost = rmwCost dst := hcost
  refine ⟨⟨_, rfl, ?inc⟩, ⟨_, rfl, ?dec⟩⟩
  all_goals
    obtain ⟨written, others, nz, frame⟩ := writeBack_spec (s := s) (dst := dst) rfl
    rw [written]
  case inc => exact ⟨byte_add_one_toNat _, others, nz, frame⟩
  case dec => exact ⟨byte_sub_one_toNat _, others, nz, frame⟩

/-- Settles O45: the opcodes are those of the encoder, and the four differ in the register and the direction. -/
theorem incDecIndexRegisters : Obligations.IncDecIndexRegisters := by
  intro s rest
  refine ⟨⟨decode_of_operandBytes_nil rfl rfl rest, _, rfl, byte_add_one_toNat s.x, ?inx⟩,
    ⟨decode_of_operandBytes_nil rfl rfl rest, _, rfl, byte_add_one_toNat s.y, ?iny⟩,
    ⟨decode_of_operandBytes_nil rfl rfl rest, _, rfl, byte_sub_one_toNat s.x, ?dex⟩,
    ⟨decode_of_operandBytes_nil rfl rfl rest, _, rfl, byte_sub_one_toNat s.y, ?dey⟩⟩
  all_goals
    exact ⟨setsNZ_setNZ s.flags _, rfl, rfl, rfl, fun _ => rfl, ⟨rfl, rfl, rfl, rfl, rfl⟩,
      advances_rearm (m := .implied) rfl Nat.zero_lt_two⟩

end Sys2Proof.Machine
end

section
/-! PROOFS. The family 44_shift_rotate: the shift functions in whole numbers, then the state after a shift. -/

namespace Sys2Proof.Machine

variable {s t : State}

/-! ### The shift functions in whole numbers (R125) -/

theorem shiftLeft_one_toNat (v : Byte) : (v <<< 1).toNat = v.toNat * 2 % 256 := by
  rw [BitVec.toNat_shiftLeft, Nat.shiftLeft_eq]

theorem shiftRight_one_toNat (v : Byte) : (v >>> 1).toNat = v.toNat / 2 := by
  rw [BitVec.toNat_ushiftRight, Nat.shiftRight_eq_div_pow]

theorem bitAt_toNat (b : Bool) {k : Nat} (hk : k < 8) : (bitAt b k).toNat = 2 ^ k * b.toNat := by
  cases b with
  | false => rfl
  | true => simpa [bitAt] using Nat.pow_lt_pow_right Nat.one_lt_two hk

theorem bit7_eq_decide (v : Byte) : v.getLsbD 7 = decide (128 ≤ v.toNat) :=
  Bool.eq_iff_iff.2 ((msb_iff v).trans decide_eq_true_iff.symm)

theorem bit0_eq_decide (v : Byte) : v.getLsbD 0 = decide (v.toNat % 2 = 1) :=
  Nat.testBit_zero v.toNat

theorem asl_spec (v : Byte) : (asl v).1.toNat = v.toNat * 2 % 256 ∧ (asl v).2 = decide (128 ≤ v.toNat) :=
  ⟨shiftLeft_one_toNat v, bit7_eq_decide v⟩

theorem lsr_spec (v : Byte) : (lsr v).1.toNat = v.toNat / 2 ∧ (lsr v).2 = decide (v.toNat % 2 = 1) :=
  ⟨shiftRight_one_toNat v, bit0_eq_decide v⟩

/-- The old C enters bit 0, which the left shift leaves empty: there "or" is addition. -/
theorem rol_spec (v : Byte) (c : Bool) :
    (rol v c).1.toNat = v.toNat * 2 % 256 + c.toNat ∧ (rol v c).2 = decide (128 ≤ v.toNat) := by
  have even : v.toNat * 2 % 256 = 2 ^ 1 * (v.toNat % 128) := by omega
  have carry : 2 ^ 0 * c.toNat < 2 ^ 1 := by
    have := c.toNat_le
    omega
  refine ⟨?_, bit7_eq_decide v⟩
  rw [rol, BitVec.toNat_or, shiftLeft_one_toNat, bitAt_toNat c (by decide), even,
    ← Nat.two_pow_add_eq_or_of_lt carry, Nat.pow_zero, Nat.one_mul]

/-- The old C enters bit 7, which the right shift leaves empty. -/
theorem ror_spec (v : Byte) (c : Bool) :
    (ror v c).1.toNat = v.toNat / 2 + 128 * c.toNat ∧ (ror v c).2 = decide (v.toNat % 2 = 1) := by
  have half : v.toNat / 2 < 2 ^ 7 := by
    have := v.isLt
    omega
  refine ⟨?_, bit0_eq_decide v⟩
  rw [ror, BitVec.toNat_or, shiftRight_one_toNat, bitAt_toNat c (by decide), Nat.or_comm,
    ← Nat.two_pow_add_eq_or_of_lt half, Nat.add_comm]

/-! ### The state after a shift (R126) -/

/-- C and then `SetNZ` of the result is `SetNZ` on the flags with the new C, as `SetNZ` leaves C alone. -/
theorem setsNZ_shifted (f : Flags) (r : Byte × Bool) : SetsNZ { f with c := r.2 } (f.shifted r) r.1 :=
  setsNZ_setNZ { f with c := r.2 } r.1

/-- What a shift of A does, whatever the result and carry `r`. -/
theorem shift_accumulator_spec {r : Byte × Bool} (h : t = shift .accumulator r s) :
    SetsNZ { s.flags with c := r.2 } t.flags r.1 ∧ SameIndexSP s t ∧ t.a = r.1 ∧ SameMem s t ∧ Advances s t 1 2 := by
  subst h
  exact ⟨setsNZ_shifted s.flags r, ⟨rfl, rfl, rfl⟩, rfl, fun _ => rfl,
    advances_rearm (m := .accumulator) rfl Nat.zero_lt_two⟩

/-- What a shift of a memory byte does, whatever the result and carry `r`. -/
theorem shift_memory_spec {m : RmwOperand} {r : Byte × Bool} (h : t = shift (.memory m) r s) :
    SetsNZ { s.flags with c := r.2 } t.flags r.1 ∧ SameIndexSP s t ∧ t.a = s.a ∧
      t.read (resolve m.toMem s).ea = r.1 ∧ SameMemBut s t (resolve m.toMem s).ea ∧
      Advances s t (modeLength m.toMem.mode) (rmwCost m) := by
  subst h
  have written : (shift (.memory m) r s).read (resolve m.toMem s).ea = r.1 :=
    State.read_write_same (s.fetched _) _ r.1
  have others : SameMemBut s (shift (.memory m) r s) (resolve m.toMem s).ea :=
    fun _ => State.read_write_ne (s.fetched _) r.1
  exact ⟨setsNZ_shifted s.flags r, ⟨rfl, rfl, rfl⟩, rfl, written, others, advances_rearm rfl (rmwCost_pos m)⟩

/-- Settles O46: each instruction is `shift` of its function's result and carry, whose lemma gives them in whole
numbers; the cost written out by mode is `rmwCost`. -/
theorem shiftsMoveOneBitThroughCarry : Obligations.ShiftsMoveOneBitThroughCarry := by
  rintro dst s v c hv rfl i res out hi
  obtain rfl : v = (shiftInput dst s).toNat := by cases dst <;> exact hv
  obtain ⟨r, run, rfl, rfl⟩ : ∃ r, exec i s = .next (shift dst r s) ∧ r.1.toNat = res ∧ r.2 = out := by
    obtain ⟨rfl, rfl, rfl⟩ | ⟨rfl, rfl, rfl⟩ | ⟨rfl, rfl, rfl⟩ | ⟨rfl, rfl, rfl⟩ := hi
    case inl => exact ⟨_, rfl, asl_spec _⟩
    case inr.inl => exact ⟨_, rfl, lsr_spec _⟩
    case inr.inr.inl => exact ⟨_, rfl, rol_spec _ _⟩
    case inr.inr.inr => exact ⟨_, rfl, ror_spec _ _⟩
  rw [BitVec.ofNat_toNat, BitVec.setWidth_eq]
  have control := exec_sameControl run
  cases dst with
  | accumulator =>
    obtain ⟨nz, ⟨hx, hy, hsp⟩, acc, frame⟩ := shift_accumulator_spec (s := s) (r := r) rfl
    exact ⟨_, run, nz, control, hx, hy, hsp, congrArg _ acc, frame⟩
  | memory m =>
    obtain ⟨nz, ⟨hx, hy, hsp⟩, acc, written, frame⟩ := shift_memory_spec (s := s) (m := m) (r := r) rfl
    exact ⟨_, run, nz, control, hx, hy, hsp, acc, congrArg _ written, frame⟩

end Sys2Proof.Machine
end

section
/-! PROOFS. The family 45_control_transfer: JMP, JSR and RTS, the return after a call, and the eight branches. -/

namespace Sys2Proof.Machine

variable {s t u : State}

/-! ### JMP (R131) -/

/-- An instruction whose operand is a word is decoded from its opcode and the word, low byte first (30_encoding R51,
R53). -/
theorem decode_of_operandBytes_word {i : Instr} {op : Byte} {w : Word} (hop : opcodeOf i = some op)
    (hb : operandBytes i = [loByte w, hiByte w]) (rest : List Byte) :
    decode (op :: loByte w :: hiByte w :: rest) = .instr i rest := by
  simpa [hb] using decode_encode hop rest

/-- The pointer of an indirect JMP: its high byte lies in the pointer's own page (30_encoding R65). -/
theorem jumpTarget_indirect (w : Word) (s : State) :
    jumpTarget (.indirect w) s =
      wordOf (s.read w) (s.read (BitVec.ofNat 16 (w.toNat / 256 * 256 + (w.toNat + 1) % 256))) := by
  rw [← pointerHigh_eq]
  rfl

/-- Settles O47: both forms go to `jumpTarget`, and its word read through the pointer has the two bytes named. -/
theorem jmpGoesToTheTarget : Obligations.JmpGoesToTheTarget := by
  intro s w rest
  refine ⟨⟨decode_of_operandBytes_word rfl rfl rest, _, rfl, ⟨rfl, rfl⟩, ?absolute⟩,
    ⟨decode_of_operandBytes_word rfl rfl rest, _, rfl, ?low, ?high, rfl, ?indirect⟩⟩
  case low => exact (congrArg loByte (jumpTarget_indirect w s)).trans (loByte_wordOf _ _)
  case high => exact (congrArg hiByte (jumpTarget_indirect w s)).trans (hiByte_wordOf _ _)
  case absolute | indirect => exact ⟨rfl, ⟨rfl, rfl, rfl, rfl⟩, fun _ => rfl, ⟨rfl, rfl, rfl, rfl, rfl⟩⟩

/-! ### JSR and RTS (R132, R133) -/

/-- The word JSR pushes is the address of its last byte, two past the opcode (R132). -/
theorem exec_jsr (w : Word) (s : State) :
    exec (.jsr w) s = .next ((((s.fetched .absolute).push16 (s.pc + 2)).setPC w).rearm 6) := by
  have ret : (s.fetched .absolute).pc - 1 = s.pc + 2 := by
    have past : (s.fetched .absolute).pc = s.pc + 2 + 1 := (BitVec.add_assoc s.pc 2 1).symm
    rw [past, BitVec.add_sub_cancel]
  rw [← ret]
  rfl

/-- JSR on the store: the return address in the two bytes of the stack, every other byte as before. -/
theorem read_of_exec_jsr {w : Word} (h : exec (.jsr w) s = .next t) (a : Word) :
    t.read a =
      if a = stackAddress (s.sp - 1) then loByte (s.pc + 2)
      else if a = stackAddress s.sp then hiByte (s.pc + 2) else s.read a := by
  rw [exec_jsr] at h
  cases h
  rw [State.read_rearm, State.read_setPC, State.read_push16, State.fetched_sp, State.read_fetched]

theorem sp_of_exec_jsr {w : Word} (h : exec (.jsr w) s = .next t) : t.sp = s.sp - 2 := by
  rw [exec_jsr] at h
  cases h
  rw [State.rearm_sp, State.setPC_sp, State.push16_sp, State.fetched_sp, BitVec.sub_sub]
  rfl

/-- Settles O48: `Push16` of the address of the last byte, on the store and on SP. -/
theorem jsrPushesItsLastByteAddress : Obligations.JsrPushesItsLastByteAddress := by
  intro s w rest
  have run := exec_jsr w s
  have stored := read_of_exec_jsr run
  refine ⟨decode_of_operandBytes_word rfl rfl rest, _, run, ⟨rfl, rfl⟩, ?high, ?low, sp_of_exec_jsr run,
    fun a notHigh notLow => ?others, ?flags, ?registers, exec_sameControl run⟩
  case high => rw [stored, if_neg (stackAddress_ne_pred s.sp), if_pos rfl]
  case low => rw [stored, if_pos rfl]
  case others => rw [stored, if_neg notLow, if_neg notHigh]
  case flags => simp
  case registers => simp [SameAXY]

theorem State.pullWord_eq (s : State) :
    s.pullWord = wordOf (s.read (stackAddress (s.sp + 1))) (s.read (stackAddress (s.sp + 2))) := by
  rw [← s.loByte_pullWord, ← s.hiByte_pullWord, wordOf_lo_hi]

/-- The state after RTS: the opcode's own bytes do not matter, as PC is replaced (R133). -/
theorem exec_rts (s : State) : exec .rts s = .next ((s.pulled.pulled.setPC (s.pullWord + 1)).rearm 6) := rfl

/-- The word a pull right after JSR gives: `Pull16` undoes `Push16` (20_memory R45). -/
theorem pullWord_of_exec_jsr {w : Word} (h : exec (.jsr w) s = .next t) : t.pullWord = s.pc + 2 := by
  rw [exec_jsr] at h
  cases h
  exact State.pullWord_push16 (s.fetched .absolute) (s.pc + 2)

/-- A return right after a call resumes behind the call and restores SP (R133). -/
theorem rts_after_jsr {w : Word} (call : exec (.jsr w) s = .next t) (ret : exec .rts t = .next u) :
    u.pc = s.pc + 3 ∧ u.sp = s.sp := by
  rw [exec_rts] at ret
  cases ret
  rw [State.rearm_pc, State.setPC_pc, pullWord_of_exec_jsr call, State.rearm_sp, State.setPC_sp, State.pulled_sp,
    State.pulled_sp, sp_of_exec_jsr call]
  exact ⟨BitVec.add_assoc s.pc 2 1, (BitVec.add_assoc (s.sp - 2) 1 1).trans (BitVec.sub_add_cancel s.sp 2)⟩

/-- Settles O49: the two bytes of the word pulled, and `rts_after_jsr`. -/
theorem rtsPullsTheReturnAddress : Obligations.RtsPullsTheReturnAddress := by
  intro s rest
  have target := congrArg (· + 1) s.pullWord_eq
  exact ⟨decode_of_operandBytes_nil rfl rfl rest,
    ⟨_, exec_rts s, ⟨target, rfl⟩, BitVec.add_assoc s.sp 1 1, rfl, ⟨rfl, rfl, rfl⟩, fun _ => rfl,
      ⟨rfl, rfl, rfl, rfl, rfl⟩⟩,
    fun _ _ _ => rts_after_jsr⟩

/-! ### The branches (R134 to R142) -/

/-- The target of a branch is the one word at the signed displacement modulo 65536 (30_encoding R68). -/
theorem add_sext_eq {pcn target : Word} {d : Byte}
    (h : (target.toNat : Int) = ((pcn.toNat : Int) + d.toInt) % 65536) : pcn + sext d = target := by
  have sum : pcn + sext d = BitVec.ofInt 16 (pcn.toNat + d.toInt) := by
    rw [BitVec.ofInt_add, BitVec.ofInt_natCast, BitVec.ofNat_toNat, BitVec.setWidth_eq]
    rfl
  apply BitVec.eq_of_toNat_eq
  rw [sum, BitVec.toNat_ofInt]
  omega

/-- A taken branch costs a cycle more when it leaves the page of the address after it (70 R178). -/
theorem branchCost_taken (pcn target : Word) :
    branchCost true (hiByte pcn != hiByte target) = if hiByte target = hiByte pcn then 3 else 4 := by
  simp [branchCost, eq_comm (a := hiByte pcn)]

/-- What the eight branches have in common, whatever the flag they test. -/
theorem branch_spec {pcn target : Word} {d : Byte} {taken : Bool} (hn : pcn = s.pc + 2)
    (ht : (target.toNat : Int) = ((pcn.toNat : Int) + d.toInt) % 65536) (h : t = branch taken d s) :
    (taken = false → GoesTo t pcn 2) ∧
      (taken = true → GoesTo t target (if hiByte target = hiByte pcn then 3 else 4)) ∧ t.flags = s.flags ∧
      SameRegs s t ∧ SameMem s t ∧ SameControl s t := by
  subst hn h
  rw [branch_eq]
  refine ⟨?fallThrough, ?jump, rfl, ⟨rfl, rfl, rfl, rfl⟩, fun _ => rfl, ⟨rfl, rfl, rfl, rfl, rfl⟩⟩
  case fallThrough =>
    rintro rfl
    exact ⟨rfl, rfl⟩
  case jump =>
    rintro rfl
    have cost : branchCost true (branchTarget (s.pc + 2) d).crossed =
        if hiByte target = hiByte (s.pc + 2) then 3 else 4 := by
      rw [branchTarget, add_sext_eq ht, branchCost_taken]
    exact ⟨add_sext_eq ht, cost ▸ Nat.sub_add_cancel (Nat.le_of_succ_le (branchCost_bounds _ _).1)⟩

/-- Settles O50: each instruction is `branch` on its flag. -/
theorem branchesTestOneFlag : Obligations.BranchesTestOneFlag := by
  intro s d pcn target i taken hn ht hi
  have run : exec i s = .next (branch taken d s) := by
    simp only [List.mem_cons, List.not_mem_nil, or_false, Prod.mk.injEq] at hi
    obtain ⟨rfl, rfl⟩ | ⟨rfl, rfl⟩ | ⟨rfl, rfl⟩ | ⟨rfl, rfl⟩ |
      ⟨rfl, rfl⟩ | ⟨rfl, rfl⟩ | ⟨rfl, rfl⟩ | ⟨rfl, rfl⟩ := hi
    all_goals rfl
  exact ⟨_, run, branch_spec hn ht rfl⟩

end Sys2Proof.Machine
end

section
/-! PROOFS. The family 46_flags_system: the flag instructions and NOP, BRK and RTI, and when a change of I is in
force. -/

namespace Sys2Proof.Machine

variable {s t u : State} {ret vec : Word} {brk : Bool}

/-! ### The flag instructions and NOP (R143 to R150) -/

/-- Settles O51: each row replaces the flags by the flags it names; NOP replaces them by themselves. -/
theorem flagInstructionsWriteOneFlag : Obligations.FlagInstructionsWriteOneFlag := by
  intro s op i f rest row
  have read_and_run : (opcodeOf i = some op ∧ operandBytes i = []) ∧ exec i s = .next (flagsOnly f s) := by
    simp only [List.mem_cons, List.not_mem_nil, or_false, Prod.mk.injEq] at row
    obtain ⟨rfl, rfl, rfl⟩ | ⟨rfl, rfl, rfl⟩ | ⟨rfl, rfl, rfl⟩ | ⟨rfl, rfl, rfl⟩ |
      ⟨rfl, rfl, rfl⟩ | ⟨rfl, rfl, rfl⟩ | ⟨rfl, rfl, rfl⟩ | ⟨rfl, rfl, rfl⟩ := row
    all_goals exact ⟨⟨rfl, rfl⟩, rfl⟩
  obtain ⟨⟨opcode, noOperand⟩, run⟩ := read_and_run
  exact ⟨decode_of_operandBytes_nil opcode noOperand rest, _, run, rfl, ⟨rfl, rfl, rfl, rfl⟩, fun _ => rfl,
    exec_sameControl run, advances_rearm (m := .implied) rfl Nat.zero_lt_two⟩

/-! ### Entering a handler, and BRK (R151; 60_exceptions R161, R163) -/

/-- The entry that BRK, NMI and IRQ share does what it should, at a vector outside the stack page. -/
theorem State.entered_enter (s : State) (ret : Word) (brk : Bool) (cost : Nat) (above : 0x200 ≤ vec.toNat)
    (below : vec.toNat < 0xFFFF) : Entered s ((s.enter ret brk vec).rearm cost) ret brk vec := by
  have twoBelow : s.sp - 1 - 1 = s.sp - 2 := BitVec.sub_sub s.sp 1 1
  have stored := s.read_enter ret brk vec
  rw [twoBelow] at stored
  have retLow_ne : stackAddress (s.sp - 1) ≠ stackAddress (s.sp - 2) := twoBelow ▸ stackAddress_ne_pred (s.sp - 1)
  have retHigh_ne : stackAddress s.sp ≠ stackAddress (s.sp - 2) := by
    rw [ne_eq, stackAddress_eq_iff]
    bv_omega
  have pc := s.enter_pc ret brk vec above below
  refine ⟨?retHigh, ?retLow, ?status, ?sp, fun a notHigh notLow notStatus => ?others, ?flags, ?pcLow, ?pcHigh, ?axy⟩
  case retHigh => rw [State.read_rearm, stored, if_neg retHigh_ne, if_neg (stackAddress_ne_pred s.sp), if_pos rfl]
  case retLow => rw [State.read_rearm, stored, if_neg retLow_ne, if_pos rfl]
  case status => rw [State.read_rearm, stored, if_pos rfl]
  case others => rw [State.read_rearm, stored, if_neg notStatus, if_neg notLow, if_neg notHigh]
  case sp => rw [State.rearm_sp, State.enter_sp, twoBelow, BitVec.sub_sub]; rfl
  case flags => simp
  case pcLow | pcHigh => simp [pc, State.read16]
  case axy => simp [SameAXY]

/-- Bits 4 and 5 of the status an entry pushes: B as stored by the entry, and the hard-wired 1 (R151). -/
theorem Entered.pushed_bits (h : Entered s t ret brk vec) :
    (t.read (stackAddress (s.sp - 2))).getLsbD 4 = brk ∧ (t.read (stackAddress (s.sp - 2))).getLsbD 5 = true := by
  obtain ⟨-, -, status, -⟩ := h
  obtain ⟨-, -, -, -, bit4, bit5, -⟩ := ({ s.flags with b := brk } : Flags).bits_pack
  rw [status]
  exact ⟨bit4, bit5⟩

/-- The return address BRK pushes lies one past its padding byte, two past the opcode (R151). -/
theorem exec_brk (s : State) :
    exec .brk s = .next (((s.fetched .implied).enter (s.pc + 2) true irqVector).rearm 7) := by
  have past : (s.fetched .implied).pc + 1 = s.pc + 2 := BitVec.add_assoc s.pc 1 1
  rw [← past]
  rfl

/-- Settles O52: the fetch moves only PC, which the entry replaces, so BRK enters from the state it started in. -/
theorem brkEntersThroughTheIrqVector : Obligations.BrkEntersThroughTheIrqVector := by
  intro s rest
  have run := exec_brk s
  have entered : Entered s (((s.fetched .implied).enter (s.pc + 2) true irqVector).rearm 7) (s.pc + 2) true irqVector :=
    (s.fetched .implied).entered_enter (s.pc + 2) true 7 (by decide) (by decide)
  exact ⟨decode_of_operandBytes_nil rfl rfl rest, _, run, entered, exec_sameControl run, rfl, entered.pushed_bits⟩

/-! ### RTI (R152) -/

/-- The opcode's own byte does not matter to RTI, as PC is replaced (R152). -/
theorem exec_rti (s : State) : exec .rti s = .next (s.leave.rearm 6) := rfl

/-- The word RTI returns to lies above the status byte. -/
theorem State.pulled_pullWord (s : State) :
    s.pulled.pullWord = wordOf (s.read (stackAddress (s.sp + 2))) (s.read (stackAddress (s.sp + 3))) := by
  rw [State.pullWord_eq, State.pulled_sp, BitVec.add_assoc, BitVec.add_assoc, State.read_pulled, State.read_pulled]
  rfl

/-- Settles O53: `leave` unpacks the first byte pulled, bit by bit, and goes to the word pulled after it. -/
theorem rtiPullsStatusAndPc : Obligations.RtiPullsStatusAndPc := by
  rintro s rest v rfl
  have sp : (s.leave.rearm 6).sp = s.sp + 3 := by simp [BitVec.add_assoc]
  exact ⟨decode_of_operandBytes_nil rfl rfl rest, _, exec_rti s, ⟨s.pulled_pullWord, rfl⟩, sp,
    rfl, rfl, rfl, rfl, rfl, rfl, rfl, ⟨rfl, rfl, rfl⟩, fun _ => rfl, exec_sameControl (exec_rti s)⟩

/-! ### When a change of I is in force (R145, R149; 60_exceptions R158; 70 R173) -/

/-- Running off the whole debt leaves the state with its debt paid (30_encoding R81). -/
theorem eq_of_run_debt (h : Sys2Proof.core.run t.debt t = .next u) : u = { t with debt := 0 } := by
  rw [busyCallsLastAsLongAsTheDebt t t.debt le_rfl, Nat.sub_self] at h
  exact (Host.Outcome.next.inj h).symm

/-- At a boundary an IRQ line at 1 is taken when I is clear and nothing of higher priority is pending (R158). -/
theorem step_of_irq (debt : s.debt = 0) (reset : s.resetPending = false) (nmi : s.nmiPending = false)
    (irq : s.irqLine = true) (unmasked : s.flags.i = false) : step s = .next s.runIrq := by
  simp [step, sample, debt, reset, nmi, irq, unmasked]

/-- At a boundary the IRQ line does not matter while I is set (R158). -/
theorem ready_of_masked (debt : s.debt = 0) (reset : s.resetPending = false) (nmi : s.nmiPending = false)
    (masked : s.flags.i = true) : s.Ready :=
  ⟨debt, by simp [sample, reset, nmi, masked]⟩

/-- Settles O9: the instruction and its Busy calls leave the requests as they were, so only the new I decides what the
boundary samples. -/
theorem cliAndSeiAreInForceAtTheNextBoundary : Obligations.CliAndSeiAreInForceAtTheNextBoundary := by
  intro s t u irq reset nmi
  refine ⟨fun run paid => ?cli, fun run paid => ?sei⟩
  case cli =>
    cases run
    cases eq_of_run_debt paid
    exact ⟨rfl, step_of_irq rfl reset nmi irq rfl⟩
  case sei =>
    have ready : u.Ready := by
      cases run
      cases eq_of_run_debt paid
      exact ready_of_masked rfl reset nmi rfl
    exact ⟨ready, step_of_ready ready⟩

end Sys2Proof.Machine
end

section
/-! PROOFS. The family 60_exceptions: what a boundary samples, the Reset, NMI and IRQ sequences, a masked IRQ, the
pending requests, InvalidOpcode, and the return right after an entry. -/

namespace Sys2Proof.Machine

variable {i : Instr} {s t u : State} {ret vec : Word} {brk level : Bool}

/-! ### What a boundary samples (R158, R159) -/

theorem sample_of_resetPending (reset : s.resetPending = true) : sample s = .reset := by simp [sample, reset]

theorem sample_of_nmiPending (reset : s.resetPending = false) (nmi : s.nmiPending = true) : sample s = .nmi := by
  simp [sample, reset, nmi]

theorem sample_of_irq (reset : s.resetPending = false) (nmi : s.nmiPending = false) (irq : s.irqLine = true)
    (unmasked : s.flags.i = false) : sample s = .irq := by
  simp [sample, reset, nmi, irq, unmasked]

theorem sample_of_no_request (reset : s.resetPending = false) (nmi : s.nmiPending = false)
    (quiet : s.irqLine = false ∨ s.flags.i = true) : sample s = .noEvent := by
  obtain low | masked := quiet
  · simp [sample, reset, nmi, low]
  · simp [sample, reset, nmi, masked]

theorem step_of_sample_reset (debt : s.debt = 0) (reset : sample s = .reset) : step s = .next s.runReset := by
  simp [step, debt, reset]

theorem step_of_sample_nmi (debt : s.debt = 0) (nmi : sample s = .nmi) : step s = .next s.runNmi := by
  simp [step, debt, nmi]

theorem step_of_sample_irq (debt : s.debt = 0) (irq : sample s = .irq) : step s = .next s.runIrq := by
  simp [step, debt, irq]

/-- Settles O7: each clause is what `Sample` answers and the Step that answer selects. -/
theorem requestsAreSampledInOrderAtABoundary : Obligations.RequestsAreSampledInOrderAtABoundary := by
  intro s
  refine ⟨fun debt reset => ⟨sample_of_resetPending reset, step_of_resetPending debt reset⟩,
    fun debt reset nmi => ?nmi, fun debt reset nmi irq unmasked => ?irq, fun debt reset nmi quiet => ?fetch,
    step_of_busy⟩
  case nmi =>
    have event := sample_of_nmiPending reset nmi
    exact ⟨event, step_of_sample_nmi debt event⟩
  case irq => exact ⟨sample_of_irq reset nmi irq unmasked, step_of_irq debt reset nmi irq unmasked⟩
  case fetch =>
    have event := sample_of_no_request reset nmi quiet
    exact ⟨event, step_of_ready ⟨debt, event⟩⟩

/-! ### The sequences (R160, R161) -/

/-- Settles O10: the Reset sequence field by field. -/
theorem resetSequenceEffect : Obligations.ResetSequenceEffect := fun s debt reset =>
  ⟨s.runReset, step_of_resetPending debt reset, rfl, rfl, rfl, rfl, loByte_wordOf _ _, hiByte_wordOf _ _, rfl,
    ⟨rfl, rfl, rfl⟩, rfl, rfl, rfl, rfl⟩

/-- The NMI sequence is the shared entry, from a state whose request is already cleared (R161). -/
theorem entered_runNmi (s : State) : Entered s s.runNmi s.pc false nmiVector :=
  State.entered_enter { s with nmiPending := false } s.pc false sequenceCost (by decide) (by decide)

theorem entered_runIrq (s : State) : Entered s s.runIrq s.pc false irqVector :=
  s.entered_enter s.pc false sequenceCost (by decide) (by decide)

/-- The NMI sequence clears its own request and keeps the other, the lines and the configuration input, at 7 cycles
(R161; 70 R179). -/
theorem State.runNmi_control (s : State) :
    s.runNmi.nmiPending = false ∧ s.runNmi.resetPending = s.resetPending ∧ s.runNmi.nmiLine = s.nmiLine ∧
      s.runNmi.irqLine = s.irqLine ∧ s.runNmi.decimalEnabled = s.decimalEnabled ∧ s.runNmi.debt = 6 := by
  simp [runNmi_eq]

/-- The IRQ sequence has no request of its own to clear: the line is a level (R161). -/
theorem State.runIrq_sameControl (s : State) : SameControl s s.runIrq := by
  simp [SameControl, runIrq_eq]

/-- Settles O11: both sequences are the shared entry, and bits 4 and 5 are those of the status any entry pushes. -/
theorem interruptSequencesEffect : Obligations.InterruptSequencesEffect := by
  intro s debt reset
  refine ⟨fun nmi => ?nmi, fun nmi irq unmasked => ?irq⟩
  case nmi =>
    have entered := entered_runNmi s
    obtain ⟨own, resetKept, nmiLine, irqLine, decimal, cost⟩ := s.runNmi_control
    exact ⟨_, step_of_sample_nmi debt (sample_of_nmiPending reset nmi), entered, own, resetKept.trans reset, nmiLine,
      irqLine, decimal, cost, entered.pushed_bits⟩
  case irq =>
    have entered := entered_runIrq s
    exact ⟨_, step_of_irq debt reset nmi irq unmasked, entered, s.runIrq_sameControl, rfl,
      entered.pushed_bits⟩

/-! ### The return right after an entry (R163, R164; 46_flags_system R151, R152) -/

/-- RTI pulls what the entry pushed: the status with B as the entry stored it, and the return address. -/
theorem Entered.undone_by_rti (entry : Entered s t ret brk vec) (back : exec .rti t = .next u) :
    u.pc = ret ∧ u.sp = s.sp ∧ u.flags = { s.flags with b := brk } := by
  obtain ⟨retHigh, retLow, status, sp, -⟩ := entry
  have sp₁ : t.sp + 1 = s.sp - 2 := by rw [sp]; bv_omega
  have sp₂ : t.sp + 2 = s.sp - 1 := by rw [sp]; bv_omega
  have sp₃ : t.sp + 3 = s.sp := by rw [sp, BitVec.sub_add_cancel]
  rw [exec_rti] at back
  cases back
  refine ⟨?pc, ?sp, ?flags⟩
  case pc => rw [State.rearm_pc, State.leave_pc, State.pulled_pullWord, sp₂, sp₃, retLow, retHigh, wordOf_lo_hi]
  case sp => rw [State.rearm_sp, State.leave_sp, BitVec.add_assoc, BitVec.add_assoc]; exact sp₃
  case flags => rw [State.rearm_flags, State.leave_flags, State.pullByte, sp₁, status, Flags.unpack_pack]

theorem entered_of_exec_brk (run : exec .brk s = .next t) : Entered s t (s.pc + 2) true irqVector := by
  obtain ⟨-, t', run', entered, -⟩ := brkEntersThroughTheIrqVector s []
  cases run'.symm.trans run
  exact entered

/-- Settles O54: BRK and both sequences are entries, and RTI undoes an entry. -/
theorem rtiUndoesTheEntry : Obligations.RtiUndoesTheEntry := by
  intro s t u back
  refine ⟨fun run => (entered_of_exec_brk run).undone_by_rti back, fun debt event run => ?_⟩
  obtain nmi | irq := event
  · rw [step_of_sample_nmi debt nmi] at run
    cases run
    exact (entered_runNmi s).undone_by_rti back
  · rw [step_of_sample_irq debt irq] at run
    cases run
    exact (entered_runIrq s).undone_by_rti back

/-! ### The lines and the pending requests (R155 to R157) -/

/-- Settles O20: no instruction, sequence or Busy call writes a line or DECIMAL_ENABLED. -/
theorem stepNeverWritesLinesOrConfiguration : Obligations.StepNeverWritesLinesOrConfiguration := fun _ _ =>
  step_keeps_lines

/-- Settles O21: a Busy call and an instruction keep both requests, IRQ's sequence too, and the other two sequences
clear what they stand for. -/
theorem pendingRequestsAreClearedOnlyByTheirSequences :
    Obligations.PendingRequestsAreClearedOnlyByTheirSequences := by
  intro s t run
  obtain ⟨-, e⟩ | ⟨debt, reset, e⟩ | ⟨debt, nmi, e⟩ | ⟨-, -, e⟩ | ⟨-, -, e⟩ := step_cases s
  all_goals rw [e] at run
  · cases run
    simp +contextual
  · cases run
    simp [runReset_eq, debt, reset]
  · cases run
    simp +contextual [runNmi_eq, debt, nmi]
  · cases run
    simp +contextual [runIrq_eq]
  · obtain ⟨reset, nmi, -⟩ := exec_sameControl run
    simp +contextual [reset, nmi]

/-! ### A masked IRQ (R158)

`setIrq level` commutes with a Step that does not sample the line. -/

theorem branch_setIrq (taken : Bool) (d : Byte) (s : State) :
    branch taken d (setIrq level s) = setIrq level (branch taken d s) := by
  cases taken <;> rfl

/-- No meaning reads or writes the IRQ line; the line's value only passes through. -/
theorem exec_setIrq (run : exec i s = .next t) : exec i (setIrq level s) = .next (setIrq level t) := by
  cases i with
  | lda o | ldx o | ldy o | adc o | sbc o | and o | ora o | eor o | cmp o | cpx o | cpy o | bit o | sta o | stx o
  | sty o | inc o | dec o | jmp o | jsr o => cases run; rfl
  | asl dst | lsr dst | rol dst | ror dst => cases run; cases dst <;> rfl
  | bcc d | bcs d | beq d | bmi d | bne d | bpl d | bvc d | bvs d =>
    cases run; exact congrArg Host.Outcome.next (branch_setIrq _ d s)
  | tax | tay | txa | tya | tsx | txs | pha | php | pla | plp | inx | iny | dex | dey | rts | clc | cld | cli | clv
  | sec | sed | sei | nop | brk | rti => cases run; rfl
  | unassigned op => cases run

theorem sample_setIrq_of_masked (masked : s.flags.i = true) : sample (setIrq level s) = sample s := by
  simp [sample, setIrq, masked]

theorem sample_ne_irq_of_masked (masked : s.flags.i = true) : sample s ≠ .irq := by
  cases reset : s.resetPending <;> cases nmi : s.nmiPending <;> simp [sample, reset, nmi, masked]

/-- While I is set, the line decides neither what a Step samples nor anything that Step does. -/
theorem step_setIrq_of_masked (masked : s.flags.i = true) (run : step s = .next t) :
    step (setIrq level s) = .next (setIrq level t) := by
  have event : sample (setIrq level s) = sample s := sample_setIrq_of_masked masked
  obtain ⟨busy, e⟩ | ⟨debt, reset, e⟩ | ⟨debt, nmi, e⟩ | ⟨-, irq, -⟩ | ⟨debt, fetch, e⟩ := step_cases s
  case inr.inr.inr.inl => exact absurd irq (sample_ne_irq_of_masked masked)
  all_goals rw [e] at run
  · cases run
    exact step_of_busy busy
  · cases run
    exact step_of_sample_reset debt (event.trans reset)
  · cases run
    exact step_of_sample_nmi debt (event.trans nmi)
  · exact (step_of_ready (s := setIrq level s) ⟨debt, event.trans fetch⟩).trans (exec_setIrq run)

/-- Settles O8: the state with the line at 1 is `setIrq true` of the state with the line at 0. -/
theorem maskedIrqHasNoEffect : Obligations.MaskedIrqHasNoEffect := fun s _ masked run =>
  step_setIrq_of_masked (s := setIrq false s) (level := true) masked run

/-! ### InvalidOpcode (R153, R154) -/

theorem fetchInstr_of_unassigned (h : s.read s.pc ∈ unassignedOpcodes) :
    fetchInstr s = .unassigned (s.read s.pc) :=
  (decodeOpcode_eq_unassigned_iff _ _ _).mpr ((descriptor_eq_unassigned_iff _).mpr h)

theorem step_of_unassigned (ready : s.Ready) (h : s.read s.pc ∈ unassignedOpcodes) :
    step s = .fault (.invalidOpcode (s.read s.pc)) := by
  rw [step_of_ready ready, fetchInstr_of_unassigned h]
  rfl

/-- An opcode of the table that is assigned is decoded to an instruction whose execution completes. -/
theorem exec_fetchInstr_completes (h : s.read s.pc ∉ unassignedOpcodes) : Completes (exec (fetchInstr s) s) := by
  cases row : descriptor (s.read s.pc) with
  | assigned m ty base =>
    have form : (fetchInstr s).form = .assigned ty m := (decodeOpcode_form _ _ _).trans (opcodeForm_of_assigned row)
    obtain ⟨t, run, -⟩ := exec_costWithin s form
    exact ⟨t, run⟩
  | unassigned => exact absurd ((descriptor_eq_unassigned_iff _).mp row) h

/-- Settles O13: Busy calls and sequences complete, and at a ready boundary the opcode's row decides. -/
theorem onlyUnassignedOpcodesStopTheMachine : Obligations.OnlyUnassignedOpcodesStopTheMachine := by
  intro s
  obtain ⟨-, e⟩ | ⟨-, -, e⟩ | ⟨-, -, e⟩ | ⟨-, -, e⟩ | ⟨debt, fetch, e⟩ := step_cases s
  case inr.inr.inr.inr =>
    by_cases listed : s.read s.pc ∈ unassignedOpcodes
    · exact .inr ⟨⟨debt, fetch⟩, listed, step_of_unassigned ⟨debt, fetch⟩ listed⟩
    · exact .inl (e ▸ exec_fetchInstr_completes listed)
  all_goals exact .inl ⟨_, e⟩

theorem driverCall_step_of_fault {f : Fault} (stop : step s = .fault f) : driverCall .step s = s := by
  simp [driverCall, afterStep, stop]

/-- A Step that stops is reported again by every further one, as the state is what it was (R154). -/
theorem driverRun_steps_of_fault {f : Fault} (stop : step s = .fault f) (k : Nat) :
    driverRun (List.replicate k .step) s = s := by
  induction k with
  | zero => rfl
  | succ k ih =>
    rw [List.replicate_succ, driverRun, List.foldl_cons, driverCall_step_of_fault stop]
    exact ih

/-- Settles O12: the fetch gives the unassigned opcode itself, whose meaning is the stop. -/
theorem unassignedOpcodeIsReportedAndChangesNothing : Obligations.UnassignedOpcodeIsReportedAndChangesNothing := by
  refine ⟨fun _ _ => rfl, fun s k ready listed => ?_⟩
  have stop := step_of_unassigned ready listed
  exact ⟨stop, by simp [stepStatus, stop], driverRun_steps_of_fault stop k⟩

end Sys2Proof.Machine
end

section
/-! PROOFS. The family 70_reset_and_hazards: the seven Steps of a Reset, and which instructions change memory. -/

namespace Sys2Proof.Machine

variable {i : Instr} {s t : State} {a ea : Word}

/-! ### Reset (R169) -/

/-- The Steps after the one that takes a Reset are Busy calls on the state the sequence leaves. -/
theorem run_succ_of_resetPending (debt : s.debt = 0) (reset : s.resetPending = true) {k : Nat} (within : k ≤ 6) :
    Sys2Proof.core.run (k + 1) s = .next { s.runReset with debt := 6 - k } := by
  rw [core_run_succ k (step_of_resetPending debt reset)]
  exact busyCallsLastAsLongAsTheDebt s.runReset k within

/-- Settles O14: six Busy calls pay the debt of the sequence, which has cleared the requests and masked the IRQ line. -/
theorem seventhStepAfterResetIsABoundary : Obligations.SeventhStepAfterResetIsABoundary := by
  intro s debt reset
  refine ⟨_, run_succ_of_resetPending debt reset le_rfl, ready_of_masked rfl rfl rfl rfl, loByte_wordOf _ _,
    hiByte_wordOf _ _, fun k positive below => ?busy⟩
  case busy =>
    obtain ⟨k, rfl⟩ := Nat.exists_eq_add_of_le' positive
    have within : k < 6 := Nat.lt_of_succ_lt_succ below
    exact ⟨_, run_succ_of_resetPending debt reset within.le, Nat.sub_pos_of_lt within⟩

/-! ### The writers of memory (R176; 20_memory R43, R45; 46_flags_system R151)

Each kind of writer has its frame already; a byte that changed is one the frame excepts. -/

theorem SameMemBut.eq_of_read_ne (frame : SameMemBut s t ea) (changed : t.read a ≠ s.read a) : a = ea :=
  of_not_not fun other => changed (frame a other)

/-- The two bytes JSR can change (20_memory R45). -/
theorem mem_of_exec_jsr_of_read_ne {w : Word} (run : exec (.jsr w) s = .next t) (changed : t.read a ≠ s.read a) :
    a ∈ [stackAddress s.sp, stackAddress (s.sp - 1)] := by
  by_contra other
  simp only [List.mem_cons, List.not_mem_nil, or_false, not_or] at other
  obtain ⟨notHigh, notLow⟩ := other
  exact changed (by rw [read_of_exec_jsr run, if_neg notLow, if_neg notHigh])

/-- The three bytes an entry to a handler can change (46_flags_system R151). -/
theorem Entered.mem_of_read_ne {ret vec : Word} {brk : Bool} (entry : Entered s t ret brk vec)
    (changed : t.read a ≠ s.read a) :
    a ∈ [stackAddress s.sp, stackAddress (s.sp - 1), stackAddress (s.sp - 2)] := by
  obtain ⟨-, -, -, -, others, -⟩ := entry
  by_contra other
  simp only [List.mem_cons, List.not_mem_nil, or_false, not_or] at other
  obtain ⟨notHigh, notLow, notStatus⟩ := other
  exact changed (others a notHigh notLow notStatus)

theorem onStackPage_of_mem_map {l : List Byte} (h : a ∈ l.map stackAddress) : OnStackPage a := by
  obtain ⟨sp, -, rfl⟩ := List.mem_map.mp h
  exact stackAddress_onStackPage sp

theorem State.read_branch (taken : Bool) (d : Byte) (s : State) (a : Word) : (branch taken d s).read a = s.read a := by
  cases taken <;> rfl

/-- Settles O57: the instructions one by one, each writer by its frame; the others leave the store as it was. -/
theorem onlyTheseInstructionsWriteMemory : Obligations.OnlyTheseInstructionsWriteMemory := by
  intro i s t a run changed
  cases i with
  | sta dst | stx dst | sty dst =>
    obtain ⟨-, frame, -⟩ := store_spec (Host.Outcome.next.inj run).symm
    exact .inl ⟨dst, by simp, frame.eq_of_read_ne changed⟩
  | inc dst | dec dst =>
    obtain ⟨-, frame, -⟩ := writeBack_spec (Host.Outcome.next.inj run).symm
    exact .inr (.inl ⟨dst, by simp, frame.eq_of_read_ne changed⟩)
  | asl dst | lsr dst | rol dst | ror dst =>
    cases dst with
    | accumulator => cases run; exact absurd rfl changed
    | memory m =>
      obtain ⟨-, -, -, -, frame, -⟩ := shift_memory_spec (Host.Outcome.next.inj run).symm
      exact .inr (.inl ⟨m, by simp, frame.eq_of_read_ne changed⟩)
  | pha | php =>
    obtain ⟨-, frame, -⟩ := pushed_spec (Host.Outcome.next.inj run).symm
    obtain rfl := frame.eq_of_read_ne changed
    exact .inr (.inr ⟨stackAddress_onStackPage s.sp, .inl ⟨by simp, rfl⟩⟩)
  | jsr w =>
    have pushed := mem_of_exec_jsr_of_read_ne run changed
    exact .inr (.inr ⟨onStackPage_of_mem_map (l := [s.sp, s.sp - 1]) pushed, .inr (.inl ⟨w, rfl, pushed⟩)⟩)
  | brk =>
    have pushed := (entered_of_exec_brk run).mem_of_read_ne changed
    exact .inr (.inr ⟨onStackPage_of_mem_map (l := [s.sp, s.sp - 1, s.sp - 2]) pushed, .inr (.inr ⟨rfl, pushed⟩)⟩)
  | bcc d | bcs d | beq d | bmi d | bne d | bpl d | bvc d | bvs d =>
    cases run; exact absurd (State.read_branch _ d s a) changed
  | lda o | ldx o | ldy o | adc o | sbc o | and o | ora o | eor o | bit o | cmp o | cpx o | cpy o | jmp o =>
    cases run; exact absurd rfl changed
  | tax | tay | txa | tya | tsx | txs | pla | plp | inx | iny | dex | dey | rts | clc | cld | cli | clv | sec | sed
  | sei | nop | rti =>
    cases run; exact absurd rfl changed
  | unassigned op => cases run

end Sys2Proof.Machine
end

section
/-! PROOFS. The family other: the first Step from power-on (70_reset_and_hazards R168, R169; 10_state R28). -/

namespace Sys2Proof.Machine

/-- The two starting states differ only in what the Reset sequence writes, and the word it reads at the vector is that
of a memory that lists nothing (R28, R160). -/
theorem State.runReset_powerOn : State.powerOn.runReset = State.reset := rfl

/-- Settles O16: power-on is a boundary with a Reset pending, so the Step is the Reset sequence. -/
theorem firstStepFromPowerOnIsReset : Obligations.FirstStepFromPowerOnIsReset := by
  have first : step State.powerOn = .next State.reset := by
    rw [step_of_resetPending rfl rfl, State.runReset_powerOn]
  exact ⟨first, rfl, rfl, rfl, rfl, rfl, rfl, rfl⟩

end Sys2Proof.Machine
end
